-- ==== Sys2Proof/Word.lean ====
section
/-! DEFINITION. The word types of the RCPU: words, double words, bytes and register numbers. -/

namespace Sys2Proof

/-- A general-purpose register, a special register, an address: 32 bits (10_state.md R30). -/
abbrev Word := BitVec 32

/-- A floating-point register or the time base: 64 bits (10_state.md R33, R43). -/
abbrev Dword := BitVec 64

/-- The smallest addressable unit (20_memory.md R130). -/
abbrev Byte := BitVec 8

/-- A register number of an instruction field (10_state.md R32, R33). -/
abbrev Reg := BitVec 5

end Sys2Proof
end

