-- ==== Sys2Proof/Syntax.lean ====
section
/-! DEFINITION. The instruction set: one constructor per row of spec/opcode_table.json, in the order of the
family files. Register fields are register numbers; SIMM, UIMM and d are the 16 bits of the field;
SPR and TBR are the register number with its halves already un-swapped (30_encoding.md R197). -/

namespace Sys2Proof

/-- The 167 instructions of the RCPU (30_encoding.md R190 to R220). The Rc, OE, AA, LK and L bits of a form are
operands (R213: reserved bits are no operands and are ignored). -/
inductive Instr where
  -- Integer arithmetic (40_integer_arith.md)
  | addi (rD rA : Reg) (simm : BitVec 16)
  | addis (rD rA : Reg) (simm : BitVec 16)
  | add (rD rA rB : Reg) (oe rc : Bool)
  | addic (rD rA : Reg) (simm : BitVec 16)
  | addicRc (rD rA : Reg) (simm : BitVec 16)
  | addc (rD rA rB : Reg) (oe rc : Bool)
  | adde (rD rA rB : Reg) (oe rc : Bool)
  | addme (rD rA : Reg) (oe rc : Bool)
  | addze (rD rA : Reg) (oe rc : Bool)
  | subf (rD rA rB : Reg) (oe rc : Bool)
  | subfic (rD rA : Reg) (simm : BitVec 16)
  | subfc (rD rA rB : Reg) (oe rc : Bool)
  | subfe (rD rA rB : Reg) (oe rc : Bool)
  | subfme (rD rA : Reg) (oe rc : Bool)
  | subfze (rD rA : Reg) (oe rc : Bool)
  | neg (rD rA : Reg) (oe rc : Bool)
  | mulli (rD rA : Reg) (simm : BitVec 16)
  | mullw (rD rA rB : Reg) (oe rc : Bool)
  | mulhw (rD rA rB : Reg) (rc : Bool)
  | mulhwu (rD rA rB : Reg) (rc : Bool)
  | divw (rD rA rB : Reg) (oe rc : Bool)
  | divwu (rD rA rB : Reg) (oe rc : Bool)
  -- Integer compare and logical (41_integer_compare_logical.md)
  | cmpi (crfD : BitVec 3) (l : Bool) (rA : Reg) (simm : BitVec 16)
  | cmp (crfD : BitVec 3) (l : Bool) (rA rB : Reg)
  | cmpli (crfD : BitVec 3) (l : Bool) (rA : Reg) (uimm : BitVec 16)
  | cmpl (crfD : BitVec 3) (l : Bool) (rA rB : Reg)
  | andiRc (rA rS : Reg) (uimm : BitVec 16)
  | andisRc (rA rS : Reg) (uimm : BitVec 16)
  | ori (rA rS : Reg) (uimm : BitVec 16)
  | oris (rA rS : Reg) (uimm : BitVec 16)
  | xori (rA rS : Reg) (uimm : BitVec 16)
  | xoris (rA rS : Reg) (uimm : BitVec 16)
  | and (rA rS rB : Reg) (rc : Bool)
  | or (rA rS rB : Reg) (rc : Bool)
  | xor (rA rS rB : Reg) (rc : Bool)
  | nand (rA rS rB : Reg) (rc : Bool)
  | nor (rA rS rB : Reg) (rc : Bool)
  | eqv (rA rS rB : Reg) (rc : Bool)
  | andc (rA rS rB : Reg) (rc : Bool)
  | orc (rA rS rB : Reg) (rc : Bool)
  | extsb (rA rS : Reg) (rc : Bool)
  | extsh (rA rS : Reg) (rc : Bool)
  | cntlzw (rA rS : Reg) (rc : Bool)
  -- Integer rotate and shift (42_rotate_shift.md)
  | rlwinm (rA rS : Reg) (sh mb me : BitVec 5) (rc : Bool)
  | rlwnm (rA rS rB : Reg) (mb me : BitVec 5) (rc : Bool)
  | rlwimi (rA rS : Reg) (sh mb me : BitVec 5) (rc : Bool)
  | slw (rA rS rB : Reg) (rc : Bool)
  | srw (rA rS rB : Reg) (rc : Bool)
  | sraw (rA rS rB : Reg) (rc : Bool)
  | srawi (rA rS : Reg) (sh : BitVec 5) (rc : Bool)
  -- Floating-point arithmetic (43_fp_arith.md)
  | fadd (frD frA frB : Reg) (rc : Bool)
  | fadds (frD frA frB : Reg) (rc : Bool)
  | fsub (frD frA frB : Reg) (rc : Bool)
  | fsubs (frD frA frB : Reg) (rc : Bool)
  | fmul (frD frA frC : Reg) (rc : Bool)
  | fmuls (frD frA frC : Reg) (rc : Bool)
  | fdiv (frD frA frB : Reg) (rc : Bool)
  | fdivs (frD frA frB : Reg) (rc : Bool)
  | fmadd (frD frA frC frB : Reg) (rc : Bool)
  | fmadds (frD frA frC frB : Reg) (rc : Bool)
  | fmsub (frD frA frC frB : Reg) (rc : Bool)
  | fmsubs (frD frA frC frB : Reg) (rc : Bool)
  | fnmadd (frD frA frC frB : Reg) (rc : Bool)
  | fnmadds (frD frA frC frB : Reg) (rc : Bool)
  | fnmsub (frD frA frC frB : Reg) (rc : Bool)
  | fnmsubs (frD frA frC frB : Reg) (rc : Bool)
  -- Floating-point rounding, conversion, compare and FPSCR (44_fp_convert_compare_fpscr.md)
  | frsp (frD frB : Reg) (rc : Bool)
  | fctiw (frD frB : Reg) (rc : Bool)
  | fctiwz (frD frB : Reg) (rc : Bool)
  | fcmpu (crfD : BitVec 3) (frA frB : Reg)
  | fcmpo (crfD : BitVec 3) (frA frB : Reg)
  | mffs (frD : Reg) (rc : Bool)
  | mcrfs (crfD crfS : BitVec 3)
  | mtfsfi (crfD : BitVec 3) (imm : BitVec 4) (rc : Bool)
  | mtfsf (fm : BitVec 8) (frB : Reg) (rc : Bool)
  | mtfsb0 (crbD : BitVec 5) (rc : Bool)
  | mtfsb1 (crbD : BitVec 5) (rc : Bool)
  -- Integer load and store (45_load_store_int.md)
  | lbz (rD : Reg) (d : BitVec 16) (rA : Reg)
  | lbzu (rD : Reg) (d : BitVec 16) (rA : Reg)
  | lbzx (rD rA rB : Reg)
  | lbzux (rD rA rB : Reg)
  | lhz (rD : Reg) (d : BitVec 16) (rA : Reg)
  | lhzu (rD : Reg) (d : BitVec 16) (rA : Reg)
  | lhzx (rD rA rB : Reg)
  | lhzux (rD rA rB : Reg)
  | lha (rD : Reg) (d : BitVec 16) (rA : Reg)
  | lhau (rD : Reg) (d : BitVec 16) (rA : Reg)
  | lhax (rD rA rB : Reg)
  | lhaux (rD rA rB : Reg)
  | lwz (rD : Reg) (d : BitVec 16) (rA : Reg)
  | lwzu (rD : Reg) (d : BitVec 16) (rA : Reg)
  | lwzx (rD rA rB : Reg)
  | lwzux (rD rA rB : Reg)
  | stb (rS : Reg) (d : BitVec 16) (rA : Reg)
  | stbu (rS : Reg) (d : BitVec 16) (rA : Reg)
  | stbx (rS rA rB : Reg)
  | stbux (rS rA rB : Reg)
  | sth (rS : Reg) (d : BitVec 16) (rA : Reg)
  | sthu (rS : Reg) (d : BitVec 16) (rA : Reg)
  | sthx (rS rA rB : Reg)
  | sthux (rS rA rB : Reg)
  | stw (rS : Reg) (d : BitVec 16) (rA : Reg)
  | stwu (rS : Reg) (d : BitVec 16) (rA : Reg)
  | stwx (rS rA rB : Reg)
  | stwux (rS rA rB : Reg)
  | lhbrx (rD rA rB : Reg)
  | lwbrx (rD rA rB : Reg)
  | sthbrx (rS rA rB : Reg)
  | stwbrx (rS rA rB : Reg)
  -- Load and store multiple, move string (46_load_store_multiple_string.md)
  | lmw (rD : Reg) (d : BitVec 16) (rA : Reg)
  | stmw (rS : Reg) (d : BitVec 16) (rA : Reg)
  | lswi (rD rA : Reg) (nb : BitVec 5)
  | lswx (rD rA rB : Reg)
  | stswi (rS rA : Reg) (nb : BitVec 5)
  | stswx (rS rA rB : Reg)
  -- Floating-point load, store and move (47_load_store_fp_move.md)
  | lfs (frD : Reg) (d : BitVec 16) (rA : Reg)
  | lfsu (frD : Reg) (d : BitVec 16) (rA : Reg)
  | lfsx (frD rA rB : Reg)
  | lfsux (frD rA rB : Reg)
  | lfd (frD : Reg) (d : BitVec 16) (rA : Reg)
  | lfdu (frD : Reg) (d : BitVec 16) (rA : Reg)
  | lfdx (frD rA rB : Reg)
  | lfdux (frD rA rB : Reg)
  | stfs (frS : Reg) (d : BitVec 16) (rA : Reg)
  | stfsu (frS : Reg) (d : BitVec 16) (rA : Reg)
  | stfsx (frS rA rB : Reg)
  | stfsux (frS rA rB : Reg)
  | stfd (frS : Reg) (d : BitVec 16) (rA : Reg)
  | stfdu (frS : Reg) (d : BitVec 16) (rA : Reg)
  | stfdx (frS rA rB : Reg)
  | stfdux (frS rA rB : Reg)
  | stfiwx (frS rA rB : Reg)
  | fmr (frD frB : Reg) (rc : Bool)
  | fneg (frD frB : Reg) (rc : Bool)
  | fabs (frD frB : Reg) (rc : Bool)
  | fnabs (frD frB : Reg) (rc : Bool)
  -- Branch, condition register, system linkage and trap (48_branch_cr_system_trap.md)
  | b (li : BitVec 24) (aa lk : Bool)
  | bc (bo bi : BitVec 5) (bd : BitVec 14) (aa lk : Bool)
  | bclr (bo bi : BitVec 5) (lk : Bool)
  | bcctr (bo bi : BitVec 5) (lk : Bool)
  | crand (crbD crbA crbB : BitVec 5)
  | cror (crbD crbA crbB : BitVec 5)
  | crxor (crbD crbA crbB : BitVec 5)
  | crnand (crbD crbA crbB : BitVec 5)
  | crnor (crbD crbA crbB : BitVec 5)
  | creqv (crbD crbA crbB : BitVec 5)
  | crandc (crbD crbA crbB : BitVec 5)
  | crorc (crbD crbA crbB : BitVec 5)
  | mcrf (crfD crfS : BitVec 3)
  | sc
  | rfi
  | tw (trapOn : BitVec 5) (rA rB : Reg)
  | twi (trapOn : BitVec 5) (rA : Reg) (simm : BitVec 16)
  -- Processor control, synchronization and cache (49_processor_control_sync_cache.md)
  | mfcr (rD : Reg)
  | mtcrf (crm : BitVec 8) (rS : Reg)
  | mcrxr (crfD : BitVec 3)
  | mfmsr (rD : Reg)
  | mtmsr (rS : Reg)
  | mfspr (rD : Reg) (spr : BitVec 10)
  | mtspr (spr : BitVec 10) (rS : Reg)
  | mftb (rD : Reg) (tbr : BitVec 10)
  | sync
  | isync
  | eieio
  | lwarx (rD rA rB : Reg)
  | stwcx (rS rA rB : Reg)
  | icbi (rA rB : Reg)
deriving DecidableEq, Repr

end Sys2Proof
end

