-- ==== Sys2Proof/Decode.lean ====
section
/-! DEFINITION. Decoding an instruction word and encoding an instruction (30_encoding.md R190 to R213). Every word is
decoded: it is one of the 167 instructions or it is rejected by name. A rejected word is an unimplemented
instruction and takes the software emulation exception (R205; 60_exceptions.md R690). -/

namespace Sys2Proof

/-- Why a word is no instruction of the RCPU. -/
inductive Reject where
  /-- The primary opcode is not used (R205). -/
  | unusedPrimary
  /-- The extended opcode of primary opcode 19, 31, 59 or 63 is not used (R205). -/
  | unusedExtended
  /-- `sc` with bit 30 = 0 (R204, 92_eei_decisions.md D31). -/
  | scBit30Clear
  /-- `stwcx.` with bit 31 = 0 (R204, 92_eei_decisions.md D31). -/
  | stwcxBit31Clear
  /-- Fewer than four bytes. -/
  | tooShort
deriving DecidableEq, Repr

/-- The `len` bits of the word whose least significant one is bit `lsb` counted from the right (the manual's bit
`31 - lsb`). -/
def fld (w : Word) (lsb len : Nat) : BitVec len := w.extractLsb' lsb len

/-- The SPR or TBR number: `I[16:20] || I[11:15]` (R197). -/
def sprOf (w : Word) : BitVec 10 := (fld w 11 5 ++ fld w 16 5 : BitVec 10)

/-- The extended opcodes of primary opcode 19, I[21:30] (R209). -/
def decode19 (w : Word) : Except Reject Instr :=
  match (fld w 1 10).toNat with
  | 0 => .ok (.mcrf (fld w 23 3) (fld w 18 3))
  | 16 => .ok (.bclr (fld w 21 5) (fld w 16 5) (w.getLsbD 0))
  | 33 => .ok (.crnor (fld w 21 5) (fld w 16 5) (fld w 11 5))
  | 50 => .ok .rfi
  | 129 => .ok (.crandc (fld w 21 5) (fld w 16 5) (fld w 11 5))
  | 150 => .ok .isync
  | 193 => .ok (.crxor (fld w 21 5) (fld w 16 5) (fld w 11 5))
  | 225 => .ok (.crnand (fld w 21 5) (fld w 16 5) (fld w 11 5))
  | 257 => .ok (.crand (fld w 21 5) (fld w 16 5) (fld w 11 5))
  | 289 => .ok (.creqv (fld w 21 5) (fld w 16 5) (fld w 11 5))
  | 417 => .ok (.crorc (fld w 21 5) (fld w 16 5) (fld w 11 5))
  | 449 => .ok (.cror (fld w 21 5) (fld w 16 5) (fld w 11 5))
  | 528 => .ok (.bcctr (fld w 21 5) (fld w 16 5) (w.getLsbD 0))
  | _ => .error .unusedExtended

/-- The XO-form instructions of primary opcode 31: extended opcode I[22:30] with OE in I[21] (R210). `mulhw` and
`mulhwu` have I[21] reserved. -/
def decode31xo9 (w : Word) : Except Reject Instr :=
  match (fld w 1 9).toNat with
  | 8 => .ok (.subfc (fld w 21 5) (fld w 16 5) (fld w 11 5) (w.getLsbD 10) (w.getLsbD 0))
  | 10 => .ok (.addc (fld w 21 5) (fld w 16 5) (fld w 11 5) (w.getLsbD 10) (w.getLsbD 0))
  | 11 => .ok (.mulhwu (fld w 21 5) (fld w 16 5) (fld w 11 5) (w.getLsbD 0))
  | 40 => .ok (.subf (fld w 21 5) (fld w 16 5) (fld w 11 5) (w.getLsbD 10) (w.getLsbD 0))
  | 75 => .ok (.mulhw (fld w 21 5) (fld w 16 5) (fld w 11 5) (w.getLsbD 0))
  | 104 => .ok (.neg (fld w 21 5) (fld w 16 5) (w.getLsbD 10) (w.getLsbD 0))
  | 136 => .ok (.subfe (fld w 21 5) (fld w 16 5) (fld w 11 5) (w.getLsbD 10) (w.getLsbD 0))
  | 138 => .ok (.adde (fld w 21 5) (fld w 16 5) (fld w 11 5) (w.getLsbD 10) (w.getLsbD 0))
  | 200 => .ok (.subfze (fld w 21 5) (fld w 16 5) (w.getLsbD 10) (w.getLsbD 0))
  | 202 => .ok (.addze (fld w 21 5) (fld w 16 5) (w.getLsbD 10) (w.getLsbD 0))
  | 232 => .ok (.subfme (fld w 21 5) (fld w 16 5) (w.getLsbD 10) (w.getLsbD 0))
  | 234 => .ok (.addme (fld w 21 5) (fld w 16 5) (w.getLsbD 10) (w.getLsbD 0))
  | 235 => .ok (.mullw (fld w 21 5) (fld w 16 5) (fld w 11 5) (w.getLsbD 10) (w.getLsbD 0))
  | 266 => .ok (.add (fld w 21 5) (fld w 16 5) (fld w 11 5) (w.getLsbD 10) (w.getLsbD 0))
  | 459 => .ok (.divwu (fld w 21 5) (fld w 16 5) (fld w 11 5) (w.getLsbD 10) (w.getLsbD 0))
  | 491 => .ok (.divw (fld w 21 5) (fld w 16 5) (fld w 11 5) (w.getLsbD 10) (w.getLsbD 0))
  | _ => .error .unusedExtended

/-- The extended opcodes of primary opcode 31: the ten bits I[21:30] of the X and XFX forms, else the nine bits I[22:30]
of the XO form (R210). -/
def decode31 (w : Word) : Except Reject Instr :=
  match (fld w 1 10).toNat with
  | 0 => .ok (.cmp (fld w 23 3) (w.getLsbD 21) (fld w 16 5) (fld w 11 5))
  | 4 => .ok (.tw (fld w 21 5) (fld w 16 5) (fld w 11 5))
  | 19 => .ok (.mfcr (fld w 21 5))
  | 20 => .ok (.lwarx (fld w 21 5) (fld w 16 5) (fld w 11 5))
  | 23 => .ok (.lwzx (fld w 21 5) (fld w 16 5) (fld w 11 5))
  | 24 => .ok (.slw (fld w 16 5) (fld w 21 5) (fld w 11 5) (w.getLsbD 0))
  | 26 => .ok (.cntlzw (fld w 16 5) (fld w 21 5) (w.getLsbD 0))
  | 28 => .ok (.and (fld w 16 5) (fld w 21 5) (fld w 11 5) (w.getLsbD 0))
  | 32 => .ok (.cmpl (fld w 23 3) (w.getLsbD 21) (fld w 16 5) (fld w 11 5))
  | 55 => .ok (.lwzux (fld w 21 5) (fld w 16 5) (fld w 11 5))
  | 60 => .ok (.andc (fld w 16 5) (fld w 21 5) (fld w 11 5) (w.getLsbD 0))
  | 83 => .ok (.mfmsr (fld w 21 5))
  | 87 => .ok (.lbzx (fld w 21 5) (fld w 16 5) (fld w 11 5))
  | 119 => .ok (.lbzux (fld w 21 5) (fld w 16 5) (fld w 11 5))
  | 124 => .ok (.nor (fld w 16 5) (fld w 21 5) (fld w 11 5) (w.getLsbD 0))
  | 144 => .ok (.mtcrf (fld w 12 8) (fld w 21 5))
  | 146 => .ok (.mtmsr (fld w 21 5))
  | 150 => if w.getLsbD 0 then .ok (.stwcx (fld w 21 5) (fld w 16 5) (fld w 11 5)) else .error .stwcxBit31Clear
  | 151 => .ok (.stwx (fld w 21 5) (fld w 16 5) (fld w 11 5))
  | 183 => .ok (.stwux (fld w 21 5) (fld w 16 5) (fld w 11 5))
  | 215 => .ok (.stbx (fld w 21 5) (fld w 16 5) (fld w 11 5))
  | 247 => .ok (.stbux (fld w 21 5) (fld w 16 5) (fld w 11 5))
  | 279 => .ok (.lhzx (fld w 21 5) (fld w 16 5) (fld w 11 5))
  | 284 => .ok (.eqv (fld w 16 5) (fld w 21 5) (fld w 11 5) (w.getLsbD 0))
  | 311 => .ok (.lhzux (fld w 21 5) (fld w 16 5) (fld w 11 5))
  | 316 => .ok (.xor (fld w 16 5) (fld w 21 5) (fld w 11 5) (w.getLsbD 0))
  | 339 => .ok (.mfspr (fld w 21 5) (sprOf w))
  | 343 => .ok (.lhax (fld w 21 5) (fld w 16 5) (fld w 11 5))
  | 371 => .ok (.mftb (fld w 21 5) (sprOf w))
  | 375 => .ok (.lhaux (fld w 21 5) (fld w 16 5) (fld w 11 5))
  | 407 => .ok (.sthx (fld w 21 5) (fld w 16 5) (fld w 11 5))
  | 412 => .ok (.orc (fld w 16 5) (fld w 21 5) (fld w 11 5) (w.getLsbD 0))
  | 439 => .ok (.sthux (fld w 21 5) (fld w 16 5) (fld w 11 5))
  | 444 => .ok (.or (fld w 16 5) (fld w 21 5) (fld w 11 5) (w.getLsbD 0))
  | 467 => .ok (.mtspr (sprOf w) (fld w 21 5))
  | 476 => .ok (.nand (fld w 16 5) (fld w 21 5) (fld w 11 5) (w.getLsbD 0))
  | 512 => .ok (.mcrxr (fld w 23 3))
  | 533 => .ok (.lswx (fld w 21 5) (fld w 16 5) (fld w 11 5))
  | 534 => .ok (.lwbrx (fld w 21 5) (fld w 16 5) (fld w 11 5))
  | 535 => .ok (.lfsx (fld w 21 5) (fld w 16 5) (fld w 11 5))
  | 536 => .ok (.srw (fld w 16 5) (fld w 21 5) (fld w 11 5) (w.getLsbD 0))
  | 567 => .ok (.lfsux (fld w 21 5) (fld w 16 5) (fld w 11 5))
  | 597 => .ok (.lswi (fld w 21 5) (fld w 16 5) (fld w 11 5))
  | 598 => .ok .sync
  | 599 => .ok (.lfdx (fld w 21 5) (fld w 16 5) (fld w 11 5))
  | 631 => .ok (.lfdux (fld w 21 5) (fld w 16 5) (fld w 11 5))
  | 661 => .ok (.stswx (fld w 21 5) (fld w 16 5) (fld w 11 5))
  | 662 => .ok (.stwbrx (fld w 21 5) (fld w 16 5) (fld w 11 5))
  | 663 => .ok (.stfsx (fld w 21 5) (fld w 16 5) (fld w 11 5))
  | 695 => .ok (.stfsux (fld w 21 5) (fld w 16 5) (fld w 11 5))
  | 725 => .ok (.stswi (fld w 21 5) (fld w 16 5) (fld w 11 5))
  | 727 => .ok (.stfdx (fld w 21 5) (fld w 16 5) (fld w 11 5))
  | 759 => .ok (.stfdux (fld w 21 5) (fld w 16 5) (fld w 11 5))
  | 790 => .ok (.lhbrx (fld w 21 5) (fld w 16 5) (fld w 11 5))
  | 792 => .ok (.sraw (fld w 16 5) (fld w 21 5) (fld w 11 5) (w.getLsbD 0))
  | 824 => .ok (.srawi (fld w 16 5) (fld w 21 5) (fld w 11 5) (w.getLsbD 0))
  | 854 => .ok .eieio
  | 918 => .ok (.sthbrx (fld w 21 5) (fld w 16 5) (fld w 11 5))
  | 922 => .ok (.extsh (fld w 16 5) (fld w 21 5) (w.getLsbD 0))
  | 954 => .ok (.extsb (fld w 16 5) (fld w 21 5) (w.getLsbD 0))
  | 982 => .ok (.icbi (fld w 16 5) (fld w 11 5))
  | 983 => .ok (.stfiwx (fld w 21 5) (fld w 16 5) (fld w 11 5))
  | _ => decode31xo9 w

/-- The extended opcodes of primary opcode 59, I[26:30] (R211). -/
def decode59 (w : Word) : Except Reject Instr :=
  match (fld w 1 5).toNat with
  | 18 => .ok (.fdivs (fld w 21 5) (fld w 16 5) (fld w 11 5) (w.getLsbD 0))
  | 20 => .ok (.fsubs (fld w 21 5) (fld w 16 5) (fld w 11 5) (w.getLsbD 0))
  | 21 => .ok (.fadds (fld w 21 5) (fld w 16 5) (fld w 11 5) (w.getLsbD 0))
  | 25 => .ok (.fmuls (fld w 21 5) (fld w 16 5) (fld w 6 5) (w.getLsbD 0))
  | 28 => .ok (.fmsubs (fld w 21 5) (fld w 16 5) (fld w 6 5) (fld w 11 5) (w.getLsbD 0))
  | 29 => .ok (.fmadds (fld w 21 5) (fld w 16 5) (fld w 6 5) (fld w 11 5) (w.getLsbD 0))
  | 30 => .ok (.fnmsubs (fld w 21 5) (fld w 16 5) (fld w 6 5) (fld w 11 5) (w.getLsbD 0))
  | 31 => .ok (.fnmadds (fld w 21 5) (fld w 16 5) (fld w 6 5) (fld w 11 5) (w.getLsbD 0))
  | _ => .error .unusedExtended

/-- The A-form instructions of primary opcode 63, extended opcode I[26:30] (R212). -/
def decode63a (w : Word) : Except Reject Instr :=
  match (fld w 1 5).toNat with
  | 18 => .ok (.fdiv (fld w 21 5) (fld w 16 5) (fld w 11 5) (w.getLsbD 0))
  | 20 => .ok (.fsub (fld w 21 5) (fld w 16 5) (fld w 11 5) (w.getLsbD 0))
  | 21 => .ok (.fadd (fld w 21 5) (fld w 16 5) (fld w 11 5) (w.getLsbD 0))
  | 25 => .ok (.fmul (fld w 21 5) (fld w 16 5) (fld w 6 5) (w.getLsbD 0))
  | 28 => .ok (.fmsub (fld w 21 5) (fld w 16 5) (fld w 6 5) (fld w 11 5) (w.getLsbD 0))
  | 29 => .ok (.fmadd (fld w 21 5) (fld w 16 5) (fld w 6 5) (fld w 11 5) (w.getLsbD 0))
  | 30 => .ok (.fnmsub (fld w 21 5) (fld w 16 5) (fld w 6 5) (fld w 11 5) (w.getLsbD 0))
  | 31 => .ok (.fnmadd (fld w 21 5) (fld w 16 5) (fld w 6 5) (fld w 11 5) (w.getLsbD 0))
  | _ => .error .unusedExtended

/-- The X-form instructions of primary opcode 63, extended opcode I[21:30] (R212). -/
def decode63x (w : Word) : Except Reject Instr :=
  match (fld w 1 10).toNat with
  | 0 => .ok (.fcmpu (fld w 23 3) (fld w 16 5) (fld w 11 5))
  | 12 => .ok (.frsp (fld w 21 5) (fld w 11 5) (w.getLsbD 0))
  | 14 => .ok (.fctiw (fld w 21 5) (fld w 11 5) (w.getLsbD 0))
  | 15 => .ok (.fctiwz (fld w 21 5) (fld w 11 5) (w.getLsbD 0))
  | 32 => .ok (.fcmpo (fld w 23 3) (fld w 16 5) (fld w 11 5))
  | 38 => .ok (.mtfsb1 (fld w 21 5) (w.getLsbD 0))
  | 40 => .ok (.fneg (fld w 21 5) (fld w 11 5) (w.getLsbD 0))
  | 64 => .ok (.mcrfs (fld w 23 3) (fld w 18 3))
  | 70 => .ok (.mtfsb0 (fld w 21 5) (w.getLsbD 0))
  | 72 => .ok (.fmr (fld w 21 5) (fld w 11 5) (w.getLsbD 0))
  | 134 => .ok (.mtfsfi (fld w 23 3) (fld w 12 4) (w.getLsbD 0))
  | 136 => .ok (.fnabs (fld w 21 5) (fld w 11 5) (w.getLsbD 0))
  | 264 => .ok (.fabs (fld w 21 5) (fld w 11 5) (w.getLsbD 0))
  | 583 => .ok (.mffs (fld w 21 5) (w.getLsbD 0))
  | 711 => .ok (.mtfsf (fld w 17 8) (fld w 11 5) (w.getLsbD 0))
  | _ => .error .unusedExtended

/-- The instruction a word stands for (R207). Primary opcode 63 is A-form when I[26] = 1 and X-form when it is 0 (R212). -/
def decode (w : Word) : Except Reject Instr :=
  match (fld w 26 6).toNat with
  | 3 => .ok (.twi (fld w 21 5) (fld w 16 5) (fld w 0 16))
  | 7 => .ok (.mulli (fld w 21 5) (fld w 16 5) (fld w 0 16))
  | 8 => .ok (.subfic (fld w 21 5) (fld w 16 5) (fld w 0 16))
  | 10 => .ok (.cmpli (fld w 23 3) (w.getLsbD 21) (fld w 16 5) (fld w 0 16))
  | 11 => .ok (.cmpi (fld w 23 3) (w.getLsbD 21) (fld w 16 5) (fld w 0 16))
  | 12 => .ok (.addic (fld w 21 5) (fld w 16 5) (fld w 0 16))
  | 13 => .ok (.addicRc (fld w 21 5) (fld w 16 5) (fld w 0 16))
  | 14 => .ok (.addi (fld w 21 5) (fld w 16 5) (fld w 0 16))
  | 15 => .ok (.addis (fld w 21 5) (fld w 16 5) (fld w 0 16))
  | 16 => .ok (.bc (fld w 21 5) (fld w 16 5) (fld w 2 14) (w.getLsbD 1) (w.getLsbD 0))
  | 17 => if w.getLsbD 1 then .ok .sc else .error .scBit30Clear
  | 18 => .ok (.b (fld w 2 24) (w.getLsbD 1) (w.getLsbD 0))
  | 19 => decode19 w
  | 20 => .ok (.rlwimi (fld w 16 5) (fld w 21 5) (fld w 11 5) (fld w 6 5) (fld w 1 5) (w.getLsbD 0))
  | 21 => .ok (.rlwinm (fld w 16 5) (fld w 21 5) (fld w 11 5) (fld w 6 5) (fld w 1 5) (w.getLsbD 0))
  | 23 => .ok (.rlwnm (fld w 16 5) (fld w 21 5) (fld w 11 5) (fld w 6 5) (fld w 1 5) (w.getLsbD 0))
  | 24 => .ok (.ori (fld w 16 5) (fld w 21 5) (fld w 0 16))
  | 25 => .ok (.oris (fld w 16 5) (fld w 21 5) (fld w 0 16))
  | 26 => .ok (.xori (fld w 16 5) (fld w 21 5) (fld w 0 16))
  | 27 => .ok (.xoris (fld w 16 5) (fld w 21 5) (fld w 0 16))
  | 28 => .ok (.andiRc (fld w 16 5) (fld w 21 5) (fld w 0 16))
  | 29 => .ok (.andisRc (fld w 16 5) (fld w 21 5) (fld w 0 16))
  | 31 => decode31 w
  | 32 => .ok (.lwz (fld w 21 5) (fld w 0 16) (fld w 16 5))
  | 33 => .ok (.lwzu (fld w 21 5) (fld w 0 16) (fld w 16 5))
  | 34 => .ok (.lbz (fld w 21 5) (fld w 0 16) (fld w 16 5))
  | 35 => .ok (.lbzu (fld w 21 5) (fld w 0 16) (fld w 16 5))
  | 36 => .ok (.stw (fld w 21 5) (fld w 0 16) (fld w 16 5))
  | 37 => .ok (.stwu (fld w 21 5) (fld w 0 16) (fld w 16 5))
  | 38 => .ok (.stb (fld w 21 5) (fld w 0 16) (fld w 16 5))
  | 39 => .ok (.stbu (fld w 21 5) (fld w 0 16) (fld w 16 5))
  | 40 => .ok (.lhz (fld w 21 5) (fld w 0 16) (fld w 16 5))
  | 41 => .ok (.lhzu (fld w 21 5) (fld w 0 16) (fld w 16 5))
  | 42 => .ok (.lha (fld w 21 5) (fld w 0 16) (fld w 16 5))
  | 43 => .ok (.lhau (fld w 21 5) (fld w 0 16) (fld w 16 5))
  | 44 => .ok (.sth (fld w 21 5) (fld w 0 16) (fld w 16 5))
  | 45 => .ok (.sthu (fld w 21 5) (fld w 0 16) (fld w 16 5))
  | 46 => .ok (.lmw (fld w 21 5) (fld w 0 16) (fld w 16 5))
  | 47 => .ok (.stmw (fld w 21 5) (fld w 0 16) (fld w 16 5))
  | 48 => .ok (.lfs (fld w 21 5) (fld w 0 16) (fld w 16 5))
  | 49 => .ok (.lfsu (fld w 21 5) (fld w 0 16) (fld w 16 5))
  | 50 => .ok (.lfd (fld w 21 5) (fld w 0 16) (fld w 16 5))
  | 51 => .ok (.lfdu (fld w 21 5) (fld w 0 16) (fld w 16 5))
  | 52 => .ok (.stfs (fld w 21 5) (fld w 0 16) (fld w 16 5))
  | 53 => .ok (.stfsu (fld w 21 5) (fld w 0 16) (fld w 16 5))
  | 54 => .ok (.stfd (fld w 21 5) (fld w 0 16) (fld w 16 5))
  | 55 => .ok (.stfdu (fld w 21 5) (fld w 0 16) (fld w 16 5))
  | 59 => decode59 w
  | 63 => if w.getLsbD 5 then decode63a w else decode63x w
  | _ => .error .unusedPrimary

/-- The word of four bytes, the first the most significant (20_memory.md R142). -/
def wordOfBytes (b0 b1 b2 b3 : Byte) : Word := (b0 ++ b1 ++ b2 ++ b3 : BitVec 32)

/-- The instruction at the head of a list of bytes, with the rest of the list. -/
def decodeBytes : List Byte → Except Reject (Instr × List Byte)
  | b0 :: b1 :: b2 :: b3 :: rest =>
    match decode (wordOfBytes b0 b1 b2 b3) with
    | .ok i => .ok (i, rest)
    | .error e => .error e
  | _ => .error .tooShort

/-! The encoder, written from the same layouts (R191 to R196): reserved bits are zero. -/

/-- D form (R191). -/
def formD (p : BitVec 6) (a b : BitVec 5) (imm : BitVec 16) : Word := (p ++ a ++ b ++ imm : BitVec 32)
/-- X, XL and XFX forms: three five-bit slots, ten bits of extended opcode, one bit. -/
def formX (p : BitVec 6) (a b c : BitVec 5) (xo : BitVec 10) (r : Bool) : Word :=
  (p ++ a ++ b ++ c ++ xo ++ BitVec.ofBool r : BitVec 32)
/-- XO form. -/
def formXO (p : BitVec 6) (a b c : BitVec 5) (oe : Bool) (xo : BitVec 9) (r : Bool) : Word :=
  (p ++ a ++ b ++ c ++ BitVec.ofBool oe ++ xo ++ BitVec.ofBool r : BitVec 32)
/-- A and M forms: five five-bit slots and one bit. -/
def formA (p : BitVec 6) (a b c d e : BitVec 5) (r : Bool) : Word :=
  (p ++ a ++ b ++ c ++ d ++ e ++ BitVec.ofBool r : BitVec 32)
/-- I form. -/
def formI (p : BitVec 6) (li : BitVec 24) (aa lk : Bool) : Word :=
  (p ++ li ++ BitVec.ofBool aa ++ BitVec.ofBool lk : BitVec 32)
/-- B form. -/
def formB (p : BitVec 6) (bo bi : BitVec 5) (bd : BitVec 14) (aa lk : Bool) : Word :=
  (p ++ bo ++ bi ++ bd ++ BitVec.ofBool aa ++ BitVec.ofBool lk : BitVec 32)
/-- XFL form (`mtfsf`): I[6] and I[15] reserved. -/
def formXFL (p : BitVec 6) (fm : BitVec 8) (b : BitVec 5) (xo : BitVec 10) (r : Bool) : Word :=
  (p ++ 0#1 ++ fm ++ 0#1 ++ b ++ xo ++ BitVec.ofBool r : BitVec 32)
/-- XFX form of `mtcrf`: I[11], I[20] and I[31] reserved. -/
def formMtcrf (p : BitVec 6) (a : BitVec 5) (crm : BitVec 8) (xo : BitVec 10) : Word :=
  (p ++ a ++ 0#1 ++ crm ++ 0#1 ++ xo ++ 0#1 : BitVec 32)
/-- A CR field number in a five-bit slot. -/
def crfSlot (f : BitVec 3) : BitVec 5 := (f ++ 0#2 : BitVec 5)
/-- A CR field number and the L bit of a compare. -/
def crfLSlot (f : BitVec 3) (l : Bool) : BitVec 5 := (f ++ 0#1 ++ BitVec.ofBool l : BitVec 5)
/-- The four-bit immediate of `mtfsfi`. -/
def immSlot (i : BitVec 4) : BitVec 5 := (i ++ 0#1 : BitVec 5)
/-- I[11:15] of a split register number: its low half (R197). -/
def sprLow (n : BitVec 10) : BitVec 5 := n.extractLsb' 0 5
/-- I[16:20] of a split register number: its high half (R197). -/
def sprHigh (n : BitVec 10) : BitVec 5 := n.extractLsb' 5 5

/-- The word of an instruction, reserved bits zero. -/
def encode (i : Instr) : Word :=
  match i with
  | .addi rD rA simm => formD 14 rD rA simm
  | .addis rD rA simm => formD 15 rD rA simm
  | .add rD rA rB oe rc => formXO 31 rD rA rB oe 266 rc
  | .addic rD rA simm => formD 12 rD rA simm
  | .addicRc rD rA simm => formD 13 rD rA simm
  | .addc rD rA rB oe rc => formXO 31 rD rA rB oe 10 rc
  | .adde rD rA rB oe rc => formXO 31 rD rA rB oe 138 rc
  | .addme rD rA oe rc => formXO 31 rD rA 0 oe 234 rc
  | .addze rD rA oe rc => formXO 31 rD rA 0 oe 202 rc
  | .subf rD rA rB oe rc => formXO 31 rD rA rB oe 40 rc
  | .subfic rD rA simm => formD 8 rD rA simm
  | .subfc rD rA rB oe rc => formXO 31 rD rA rB oe 8 rc
  | .subfe rD rA rB oe rc => formXO 31 rD rA rB oe 136 rc
  | .subfme rD rA oe rc => formXO 31 rD rA 0 oe 232 rc
  | .subfze rD rA oe rc => formXO 31 rD rA 0 oe 200 rc
  | .neg rD rA oe rc => formXO 31 rD rA 0 oe 104 rc
  | .mulli rD rA simm => formD 7 rD rA simm
  | .mullw rD rA rB oe rc => formXO 31 rD rA rB oe 235 rc
  | .mulhw rD rA rB rc => formXO 31 rD rA rB false 75 rc
  | .mulhwu rD rA rB rc => formXO 31 rD rA rB false 11 rc
  | .divw rD rA rB oe rc => formXO 31 rD rA rB oe 491 rc
  | .divwu rD rA rB oe rc => formXO 31 rD rA rB oe 459 rc
  | .cmpi crfD l rA simm => formD 11 (crfLSlot crfD l) rA simm
  | .cmp crfD l rA rB => formX 31 (crfLSlot crfD l) rA rB 0 false
  | .cmpli crfD l rA uimm => formD 10 (crfLSlot crfD l) rA uimm
  | .cmpl crfD l rA rB => formX 31 (crfLSlot crfD l) rA rB 32 false
  | .andiRc rA rS uimm => formD 28 rS rA uimm
  | .andisRc rA rS uimm => formD 29 rS rA uimm
  | .ori rA rS uimm => formD 24 rS rA uimm
  | .oris rA rS uimm => formD 25 rS rA uimm
  | .xori rA rS uimm => formD 26 rS rA uimm
  | .xoris rA rS uimm => formD 27 rS rA uimm
  | .and rA rS rB rc => formX 31 rS rA rB 28 rc
  | .or rA rS rB rc => formX 31 rS rA rB 444 rc
  | .xor rA rS rB rc => formX 31 rS rA rB 316 rc
  | .nand rA rS rB rc => formX 31 rS rA rB 476 rc
  | .nor rA rS rB rc => formX 31 rS rA rB 124 rc
  | .eqv rA rS rB rc => formX 31 rS rA rB 284 rc
  | .andc rA rS rB rc => formX 31 rS rA rB 60 rc
  | .orc rA rS rB rc => formX 31 rS rA rB 412 rc
  | .extsb rA rS rc => formX 31 rS rA 0 954 rc
  | .extsh rA rS rc => formX 31 rS rA 0 922 rc
  | .cntlzw rA rS rc => formX 31 rS rA 0 26 rc
  | .rlwinm rA rS sh mb me rc => formA 21 rS rA sh mb me rc
  | .rlwnm rA rS rB mb me rc => formA 23 rS rA rB mb me rc
  | .rlwimi rA rS sh mb me rc => formA 20 rS rA sh mb me rc
  | .slw rA rS rB rc => formX 31 rS rA rB 24 rc
  | .srw rA rS rB rc => formX 31 rS rA rB 536 rc
  | .sraw rA rS rB rc => formX 31 rS rA rB 792 rc
  | .srawi rA rS sh rc => formX 31 rS rA sh 824 rc
  | .fadd frD frA frB rc => formA 63 frD frA frB 0 21 rc
  | .fadds frD frA frB rc => formA 59 frD frA frB 0 21 rc
  | .fsub frD frA frB rc => formA 63 frD frA frB 0 20 rc
  | .fsubs frD frA frB rc => formA 59 frD frA frB 0 20 rc
  | .fmul frD frA frC rc => formA 63 frD frA 0 frC 25 rc
  | .fmuls frD frA frC rc => formA 59 frD frA 0 frC 25 rc
  | .fdiv frD frA frB rc => formA 63 frD frA frB 0 18 rc
  | .fdivs frD frA frB rc => formA 59 frD frA frB 0 18 rc
  | .fmadd frD frA frC frB rc => formA 63 frD frA frB frC 29 rc
  | .fmadds frD frA frC frB rc => formA 59 frD frA frB frC 29 rc
  | .fmsub frD frA frC frB rc => formA 63 frD frA frB frC 28 rc
  | .fmsubs frD frA frC frB rc => formA 59 frD frA frB frC 28 rc
  | .fnmadd frD frA frC frB rc => formA 63 frD frA frB frC 31 rc
  | .fnmadds frD frA frC frB rc => formA 59 frD frA frB frC 31 rc
  | .fnmsub frD frA frC frB rc => formA 63 frD frA frB frC 30 rc
  | .fnmsubs frD frA frC frB rc => formA 59 frD frA frB frC 30 rc
  | .frsp frD frB rc => formX 63 frD 0 frB 12 rc
  | .fctiw frD frB rc => formX 63 frD 0 frB 14 rc
  | .fctiwz frD frB rc => formX 63 frD 0 frB 15 rc
  | .fcmpu crfD frA frB => formX 63 (crfSlot crfD) frA frB 0 false
  | .fcmpo crfD frA frB => formX 63 (crfSlot crfD) frA frB 32 false
  | .mffs frD rc => formX 63 frD 0 0 583 rc
  | .mcrfs crfD crfS => formX 63 (crfSlot crfD) (crfSlot crfS) 0 64 false
  | .mtfsfi crfD imm rc => formX 63 (crfSlot crfD) 0 (immSlot imm) 134 rc
  | .mtfsf fm frB rc => formXFL 63 fm frB 711 rc
  | .mtfsb0 crbD rc => formX 63 crbD 0 0 70 rc
  | .mtfsb1 crbD rc => formX 63 crbD 0 0 38 rc
  | .lbz rD d rA => formD 34 rD rA d
  | .lbzu rD d rA => formD 35 rD rA d
  | .lbzx rD rA rB => formX 31 rD rA rB 87 false
  | .lbzux rD rA rB => formX 31 rD rA rB 119 false
  | .lhz rD d rA => formD 40 rD rA d
  | .lhzu rD d rA => formD 41 rD rA d
  | .lhzx rD rA rB => formX 31 rD rA rB 279 false
  | .lhzux rD rA rB => formX 31 rD rA rB 311 false
  | .lha rD d rA => formD 42 rD rA d
  | .lhau rD d rA => formD 43 rD rA d
  | .lhax rD rA rB => formX 31 rD rA rB 343 false
  | .lhaux rD rA rB => formX 31 rD rA rB 375 false
  | .lwz rD d rA => formD 32 rD rA d
  | .lwzu rD d rA => formD 33 rD rA d
  | .lwzx rD rA rB => formX 31 rD rA rB 23 false
  | .lwzux rD rA rB => formX 31 rD rA rB 55 false
  | .stb rS d rA => formD 38 rS rA d
  | .stbu rS d rA => formD 39 rS rA d
  | .stbx rS rA rB => formX 31 rS rA rB 215 false
  | .stbux rS rA rB => formX 31 rS rA rB 247 false
  | .sth rS d rA => formD 44 rS rA d
  | .sthu rS d rA => formD 45 rS rA d
  | .sthx rS rA rB => formX 31 rS rA rB 407 false
  | .sthux rS rA rB => formX 31 rS rA rB 439 false
  | .stw rS d rA => formD 36 rS rA d
  | .stwu rS d rA => formD 37 rS rA d
  | .stwx rS rA rB => formX 31 rS rA rB 151 false
  | .stwux rS rA rB => formX 31 rS rA rB 183 false
  | .lhbrx rD rA rB => formX 31 rD rA rB 790 false
  | .lwbrx rD rA rB => formX 31 rD rA rB 534 false
  | .sthbrx rS rA rB => formX 31 rS rA rB 918 false
  | .stwbrx rS rA rB => formX 31 rS rA rB 662 false
  | .lmw rD d rA => formD 46 rD rA d
  | .stmw rS d rA => formD 47 rS rA d
  | .lswi rD rA nb => formX 31 rD rA nb 597 false
  | .lswx rD rA rB => formX 31 rD rA rB 533 false
  | .stswi rS rA nb => formX 31 rS rA nb 725 false
  | .stswx rS rA rB => formX 31 rS rA rB 661 false
  | .lfs frD d rA => formD 48 frD rA d
  | .lfsu frD d rA => formD 49 frD rA d
  | .lfsx frD rA rB => formX 31 frD rA rB 535 false
  | .lfsux frD rA rB => formX 31 frD rA rB 567 false
  | .lfd frD d rA => formD 50 frD rA d
  | .lfdu frD d rA => formD 51 frD rA d
  | .lfdx frD rA rB => formX 31 frD rA rB 599 false
  | .lfdux frD rA rB => formX 31 frD rA rB 631 false
  | .stfs frS d rA => formD 52 frS rA d
  | .stfsu frS d rA => formD 53 frS rA d
  | .stfsx frS rA rB => formX 31 frS rA rB 663 false
  | .stfsux frS rA rB => formX 31 frS rA rB 695 false
  | .stfd frS d rA => formD 54 frS rA d
  | .stfdu frS d rA => formD 55 frS rA d
  | .stfdx frS rA rB => formX 31 frS rA rB 727 false
  | .stfdux frS rA rB => formX 31 frS rA rB 759 false
  | .stfiwx frS rA rB => formX 31 frS rA rB 983 false
  | .fmr frD frB rc => formX 63 frD 0 frB 72 rc
  | .fneg frD frB rc => formX 63 frD 0 frB 40 rc
  | .fabs frD frB rc => formX 63 frD 0 frB 264 rc
  | .fnabs frD frB rc => formX 63 frD 0 frB 136 rc
  | .b li aa lk => formI 18 li aa lk
  | .bc bo bi bd aa lk => formB 16 bo bi bd aa lk
  | .bclr bo bi lk => formX 19 bo bi 0 16 lk
  | .bcctr bo bi lk => formX 19 bo bi 0 528 lk
  | .crand crbD crbA crbB => formX 19 crbD crbA crbB 257 false
  | .cror crbD crbA crbB => formX 19 crbD crbA crbB 449 false
  | .crxor crbD crbA crbB => formX 19 crbD crbA crbB 193 false
  | .crnand crbD crbA crbB => formX 19 crbD crbA crbB 225 false
  | .crnor crbD crbA crbB => formX 19 crbD crbA crbB 33 false
  | .creqv crbD crbA crbB => formX 19 crbD crbA crbB 289 false
  | .crandc crbD crbA crbB => formX 19 crbD crbA crbB 129 false
  | .crorc crbD crbA crbB => formX 19 crbD crbA crbB 417 false
  | .mcrf crfD crfS => formX 19 (crfSlot crfD) (crfSlot crfS) 0 0 false
  | .sc => formX 17 0 0 0 1 false
  | .rfi => formX 19 0 0 0 50 false
  | .tw trapOn rA rB => formX 31 trapOn rA rB 4 false
  | .twi trapOn rA simm => formD 3 trapOn rA simm
  | .mfcr rD => formX 31 rD 0 0 19 false
  | .mtcrf crm rS => formMtcrf 31 rS crm 144
  | .mcrxr crfD => formX 31 (crfSlot crfD) 0 0 512 false
  | .mfmsr rD => formX 31 rD 0 0 83 false
  | .mtmsr rS => formX 31 rS 0 0 146 false
  | .mfspr rD spr => formX 31 rD (sprLow spr) (sprHigh spr) 339 false
  | .mtspr spr rS => formX 31 rS (sprLow spr) (sprHigh spr) 467 false
  | .mftb rD tbr => formX 31 rD (sprLow tbr) (sprHigh tbr) 371 false
  | .sync => formX 31 0 0 0 598 false
  | .isync => formX 19 0 0 0 150 false
  | .eieio => formX 31 0 0 0 854 false
  | .lwarx rD rA rB => formX 31 rD rA rB 20 false
  | .stwcx rS rA rB => formX 31 rS rA rB 150 true
  | .icbi rA rB => formX 31 0 rA rB 982 false

/-- The bytes of a word in the order the RCPU stores them, the most significant first (20_memory.md R135, R142). -/
def bytesOfWord (w : Word) : List Byte := [fld w 24 8, fld w 16 8, fld w 8 8, fld w 0 8]

/-- The host's numbering of a table word: an instruction is one 32-bit word and bit 0 is its least significant bit, so
the number `w` is the word (bits from `nbits` up are zero). Its bytes are laid out as stored and decoded. -/
def tableWord (nbits w : Nat) : Word := BitVec.ofNat 32 (w % 2 ^ nbits)

/-- The instruction this decoder reads from a table word. -/
def decodeTableWord (nbits w : Nat) : Option Instr :=
  match decodeBytes (bytesOfWord (tableWord nbits w)) with
  | .ok (i, _) => some i
  | .error _ => none

end Sys2Proof
end

