-- ==== Sys2Proof/Machine/Bits.lean ====
section
/-! DEFINITION. Bits and fields of a word in the manual's numbering: bit 0 is the most significant (00_scope.md R10). -/

namespace Sys2Proof.Machine

open Sys2Proof

/-- Bit `b` of a word, bit 0 the most significant. -/
def bit (w : Word) (b : Nat) : Bool := w.getLsbD (31 - b)

/-- The word with bit `b` alone set. -/
def bitMask (b : Nat) : Word := BitVec.twoPow 32 (31 - b)

/-- The word with bit `b` replaced by `v`. -/
def setBit (w : Word) (b : Nat) (v : Bool) : Word := if v then w ||| bitMask b else w &&& ~~~(bitMask b)

/-- The word with the bits of `mask` taken from `v`. -/
def insertBits (w mask v : Word) : Word := (w &&& ~~~mask) ||| (v &&& mask)

/-- Bits `first` to `first + len - 1` of a word. -/
def bits (w : Word) (first len : Nat) : BitVec len := w.extractLsb' (32 - first - len) len

/-- A bit as a word with that bit last. -/
def wordOfBool (b : Bool) : Word := if b then 1 else 0

/-- Bit `b` of a double word, bit 0 the most significant. -/
def dbit (d : Dword) (b : Nat) : Bool := d.getLsbD (63 - b)

/-- MSR bits (10_state.md R44). -/
def msrILE (m : Word) : Bool := bit m 15
def msrEE (m : Word) : Bool := bit m 16
def msrPR (m : Word) : Bool := bit m 17
def msrFP (m : Word) : Bool := bit m 18
def msrME (m : Word) : Bool := bit m 19
def msrFE0 (m : Word) : Bool := bit m 20
def msrSE (m : Word) : Bool := bit m 21
def msrBE (m : Word) : Bool := bit m 22
def msrFE1 (m : Word) : Bool := bit m 23
def msrIP (m : Word) : Bool := bit m 25
def msrRI (m : Word) : Bool := bit m 30
def msrLE (m : Word) : Bool := bit m 31

/-- Floating-point precise mode, FE0 | FE1 (10_state.md R45). -/
def msrFE (m : Word) : Bool := msrFE0 m || msrFE1 m

/-- The MSR bits that are no reserved field (10_state.md R44): the reserved ones read 0. -/
def msrMask : Word := 0x0001FF43#32

/-- XER bits (10_state.md R37). -/
def xerSO (x : Word) : Bool := bit x 0
def xerOV (x : Word) : Bool := bit x 1
def xerCA (x : Word) : Bool := bit x 2
/-- XER[25:31], the byte count of the indexed string instructions. -/
def xerBytes (x : Word) : Nat := (bits x 25 7).toNat
/-- The XER bits that are stored: bits 3:15 and 24 read 0 (10_state.md R31, R37). -/
def xerMask : Word := 0xE000FF7F#32

/-- The storage bits of registers with reserved fields (10_state.md R31; 62_debug_mode_and_port.md R772 to R781). -/
def cmpIMask : Word := 0xFFFFFFFC#32
def countMask : Word := 0xFFFF0003#32
def lctrl1Mask : Word := 0xFFFFFFFC#32
/-- LCTRL2 without its reserved bits 21:27 and without DLW0EN and DLW1EN, which TECR holds. -/
def lctrl2Mask : Word := 0xFFFFF80C#32
/-- ICTRL without DIW0EN to DIW3EN, which TECR holds. -/
def ictrlMask : Word := 0xFFFFFF0F#32
/-- ECR and DER: bits 2:10, 13:15, 17 and 28:31. -/
def causeMask : Word := 0x3FE7400F#32
/-- FPECR: SIE and the four status bits (10_state.md R57). -/
def fpecrMask : Word := 0x8000000F#32
/-- FPSCR: bit 20 is reserved (10_state.md R40). -/
def fpscrMask : Word := 0xFFFFF7FF#32
/-- ICCST: IEN, CMD and the error bits (10_state.md R54). -/
def iccstMask : Word := 0x8E380000#32

end Sys2Proof.Machine
end

