-- ==== Sys2Proof/Config.lean ====
section
/-! DEFINITION. What an implementation fixes and what the spec leaves open: constants without a body, so that nothing can
be proved of their values. -/

namespace Sys2Proof

/-- The supply of free values (93_implementation_defined.md part 1.3, `any value`): the n-th value drawn. State counts
the draws in `freeCount`, so every draw is a fresh one (log 6). -/
opaque Config.freeBits : Nat → BitVec 64

/-- PVR_VALUE (10_state.md R52, 92_eei_decisions.md D2): the constant contents of the processor version register (log 3). -/
opaque Config.pvrValue : Word

end Sys2Proof
end

