-- ==== Sys2Proof/Machine/State.lean ====
section
/-! DEFINITION. The state of the machine as plain data (10_state.md R30, R75; 61_development_support.md R730), the reasons
a step can stop, and the state right after power-on reset. -/

namespace Sys2Proof.Machine

open Sys2Proof

/-- Reasons a step ends in a fault: none. Every error the spec describes is an exception or the checkstop state, which
are next states (60_exceptions.md R630, R665): no fault is raised, which is safe. -/
inductive Fault where
deriving DecidableEq, Repr

/-- Reasons a step is refused. Each is a form the spec gives the treatment `refuse` (93_implementation_defined.md part 1.4);
refusing is safe: no claim about a run through such a form can be proved. -/
inductive Refusal where
  /-- `exec`, for an instruction without a meaning. Safe. -/
  | notModelled (mnemonic : String)
  /-- `bc`, `bclr`, `bcctr` with a z bit of BO set (30_encoding.md R216, U30). Safe. -/
  | invalidBranchOptions
  /-- `bcctr` with BO[2] = 0 (30_encoding.md R216, U30). Safe. -/
  | invalidCountBranch
  /-- `lswx` with rB in the loaded range, or with count 0 and rD = rA or rD = rB (30_encoding.md R216, U31). Safe. -/
  | invalidLoadString
  /-- A branch fed to the core in debug mode (62_debug_mode_and_port.md R752, U35). Safe. -/
  | branchInDebugMode
deriving DecidableEq, Repr

/-- One line of the instruction cache (20_memory.md R168). -/
structure CacheLine where
  /-- Address bits 0:20. -/
  tag : BitVec 21
  valid : Bool
  lock : Bool
  word0 : Word
  word1 : Word
  word2 : Word
  word3 : Word
deriving DecidableEq, Repr

/-- One set of the instruction cache: two ways and the LRU bit, which names the way to replace next (20_memory.md R168). -/
structure CacheSet where
  way0 : CacheLine
  way1 : CacheLine
  lru : Bool
deriving DecidableEq, Repr

/-- A line held in the burst buffer or the line buffer (20_memory.md R168, R170): its address bits 0:27, its words, and
for a line of a cache-inhibited region which words have not been delivered yet. -/
structure LineBuffer where
  line : BitVec 28
  word0 : Word
  word1 : Word
  word2 : Word
  word3 : Word
  inhibited : Bool
  fresh : BitVec 4
deriving DecidableEq, Repr

/-- The instruction cache: arrays, burst buffer and line buffer (20_memory.md R168). -/
structure ICache where
  sets : Vector CacheSet 128
  burst : Option LineBuffer
  line : Option LineBuffer
deriving DecidableEq, Repr

/-- An older version of an instruction word that a fetch may still deliver (20_memory.md R184, 92_eei_decisions.md D29):
`queued` while the prefetch queue may hold it, `buffered` while the burst buffer or the line buffer may, `cached` while the
cache arrays may. -/
structure StaleWord where
  /-- The aligned address of the word. -/
  addr : Word
  old : Word
  queued : Bool
  buffered : Bool
  cached : Bool
deriving DecidableEq, Repr

/-- A transmission from the development tool (62_debug_mode_and_port.md R749). -/
inductive Transmission where
  /-- 10 bits: the control bit and seven data bits d1 to d7, d1 leftmost (61_development_support.md R748). -/
  | trapEnable (control : Bool) (data : BitVec 7)
  /-- 35 bits, control 0: an instruction for the CPU. -/
  | cpuInstr (w : Word)
  /-- 35 bits, control 1: data for the CPU. -/
  | cpuData (w : Word)
deriving DecidableEq, Repr

/-- What a transmission shifts out (62_debug_mode_and_port.md R749, Tables 8-14 and 8-15). -/
inductive PortReply where
  /-- Status 00 and 32 bits from the CPU. -/
  | validData (w : Word)
  /-- Status 00 and the seven most significant bits, when a 10-bit transmission shifts them out. -/
  | validDataHead (d : BitVec 7)
  | sequenceError
  | cpuException
  | null
deriving DecidableEq, Repr

/-- The development port (61_development_support.md R730, R748; 62_debug_mode_and_port.md R752). -/
structure Port where
  /-- TECR: DIW0EN to DIW3EN, DLW0EN, DLW1EN, VSYNC, NMBRK, MBRK from the left. -/
  tecr : BitVec 9
  /-- PORT_DATA. -/
  data : Option Word
  /-- PORT_SEQ. -/
  seq : Bool
  /-- PORT_EXC. -/
  exc : Bool
  /-- The register of an `mfspr DPDR` in debug mode that waits for its data. -/
  wait : Option Reg
  /-- MODEL's own: transmissions not yet taken. -/
  inbox : List Transmission
  /-- MODEL's own: what the last transmission shifted out. -/
  reply : Option PortReply
deriving DecidableEq, Repr

/-- One region of MEMORY_MAP (92_eei_decisions.md D21): the addresses `first` to `last`, the access kinds that end in a
bus error, and the cache-inhibited attribute. -/
structure MapRegion where
  first : Word
  last : Word
  errFetch : Bool
  errLoad : Bool
  errStore : Bool
  inhibited : Bool
deriving DecidableEq, Repr

/-- The platform's parameters (92_eei_decisions.md D1, D21; 49_processor_control_sync_cache.md R587). No step changes them. -/
structure Platform where
  /-- RESET_IP. -/
  resetIp : Bool
  /-- MEMORY_MAP: what is not listed is storage without errors, not cache-inhibited. -/
  map : List MapRegion
  /-- External SPR numbers whose access ends in a bus error. -/
  sprErrors : List (BitVec 10)
deriving DecidableEq, Repr

/-- What the host can do to the core between two instructions (00_scope.md, 60_exceptions.md R631). -/
inductive HostEvent where
  /-- TB_TICK (92_eei_decisions.md D3). -/
  | tick
  /-- The level of the IRQ input (60_exceptions.md R668). -/
  | irq (level : Bool)
  /-- A peripheral's maskable breakpoint request (60_exceptions.md R698). -/
  | breakRequest
  /-- A write of one byte by another bus master (20_memory.md R157, R164 (e)). -/
  | busWrite (addr : Word) (value : Byte)
  /-- Such a write during the next instruction, before its data cycle number `cycle`, the first being 0 (20_memory.md R152). -/
  | busWriteDuring (cycle : Nat) (addr : Word) (value : Byte)
  /-- RESET asserted between two instructions (70_reset_and_hazards.md R802). -/
  | assertReset
  /-- RESET asserted while the next instruction is in progress (70_reset_and_hazards.md R802, D66). -/
  | assertResetDuring
  /-- RESET negated, with the two samples of DSCK (62_debug_mode_and_port.md R760). -/
  | negateReset (dsckAtReset dsckAfterReset : Bool)
  /-- A transmission to the development port. -/
  | transmit (t : Transmission)
deriving DecidableEq, Repr

/-- One L-bus data cycle (61_development_support.md R741). -/
structure BusCycle where
  /-- The effective address of the cycle, before the little-endian modification. -/
  ea : Word
  /-- The address on the L-bus. -/
  addr : Word
  /-- 1, 2 or 4 bytes. -/
  size : Nat
  write : Bool
  /-- The data, right-justified. -/
  data : Word
  /-- False for the cycles of a floating-point double (61_development_support.md R739). -/
  compares : Bool
deriving DecidableEq, Repr

/-- A byte that another bus master writes during an instruction, before the instruction's data cycle number `cycle`
(20_memory.md R152). -/
structure Intrusion where
  cycle : Nat
  addr : Word
  value : Byte
deriving DecidableEq, Repr

/-- When an exception is taken: before the instruction has an effect, or after it has completed (60_exceptions.md R640). -/
inductive ExcClass where
  | before
  | after
deriving DecidableEq, Repr

/-- Everything the spec gives the machine. A register name is the spec's in lower case. -/
structure State where
  gpr : Vector Word 32
  fpr : Vector Dword 32
  /-- CIA (10_state.md R36). -/
  pc : Word
  cr : Word
  xer : Word
  lr : Word
  ctr : Word
  fpscr : Word
  msr : Word
  /-- TBU || TBL. -/
  tb : Dword
  dec : Word
  dsisr : Word
  dar : Word
  srr0 : Word
  srr1 : Word
  sprg0 : Word
  sprg1 : Word
  sprg2 : Word
  sprg3 : Word
  fpecr : Word
  iccst : Word
  icadr : Word
  cmpA : Word
  cmpB : Word
  cmpC : Word
  cmpD : Word
  cmpE : Word
  cmpF : Word
  cmpG : Word
  cmpH : Word
  ecr : Word
  der : Word
  countA : Word
  countB : Word
  lctrl1 : Word
  lctrl2 : Word
  ictrl : Word
  bar : Word
  /-- RESERVE and RESERVE_ADDR: the granule, address bits 0:26 (20_memory.md R160, R162). -/
  reservation : Option (BitVec 27)
  decPending : Bool
  irq : Bool
  nmiPending : Bool
  /-- MODEL's own: the pending non-maskable breakpoint was requested at reset (62_debug_mode_and_port.md R760, U13). -/
  nmiAtReset : Bool
  mebPending : Bool
  resetAsserted : Bool
  checkstop : Bool
  debugEnabled : Bool
  inDebug : Bool
  freeze : Bool
  port : Port
  icache : ICache
  stale : List StaleWord
  /-- Memory: addresses strictly rising, no entry equal to what an unlisted address reads as. -/
  mem : List Host.Cell
  platform : Platform
  /-- MODEL's own: what the host does before each of the next steps. -/
  events : List (List HostEvent)
  /-- MODEL's own: the writes of other bus masters that fall into the next instruction. -/
  intrusions : List Intrusion
  /-- MODEL's own: RESET is asserted while the next instruction is in progress. -/
  cutShort : Bool
  /-- MODEL's own: how many free values have been drawn. -/
  freeCount : Nat
  /-- MODEL's own: the L-bus cycles of the current instruction. -/
  lbus : List BusCycle
  /-- MODEL's own: the class of the exception taken in this step. -/
  excTaken : Option ExcClass
deriving DecidableEq, Repr

/-- A line that holds nothing. -/
def CacheLine.empty : CacheLine :=
  { tag := 0, valid := false, lock := false, word0 := 0, word1 := 0, word2 := 0, word3 := 0 }

/-- A set that holds nothing. -/
def CacheSet.empty : CacheSet := { way0 := .empty, way1 := .empty, lru := false }

/-- The cache after power-on: the spec gives its arrays no value (10_state.md R80); all lines invalid is a DESIGN CHOICE
(log 1). -/
def ICache.empty : ICache := { sets := Vector.replicate 128 .empty, burst := none, line := none }

/-- The port after reset (70_reset_and_hazards.md R803). -/
def Port.idle : Port :=
  { tecr := 0, data := none, seq := false, exc := false, wait := none, inbox := [], reply := none }

/-- The platform of the spec's programs: RESET_IP = 0, storage everywhere, no errors (92_eei_decisions.md D1, D21).
DESIGN CHOICE (log 2). -/
def Platform.plain : Platform := { resetIp := false, map := [], sprErrors := [] }

/-- The machine right after power-on reset, before its first fetch (10_state.md R80, 70_reset_and_hazards.md R801, R803).
Registers without a reset value are 0: DESIGN CHOICE, log 1. -/
def State.reset : State :=
  { gpr := Vector.replicate 32 0
    fpr := Vector.replicate 32 0
    pc := 0x100#32
    cr := 0, xer := 0, lr := 0, ctr := 0, fpscr := 0
    msr := 0
    tb := 0, dec := 0, dsisr := 0, dar := 0, srr0 := 0, srr1 := 0
    sprg0 := 0, sprg1 := 0, sprg2 := 0, sprg3 := 0
    fpecr := 0, iccst := 0, icadr := 0
    cmpA := 0, cmpB := 0, cmpC := 0, cmpD := 0, cmpE := 0, cmpF := 0, cmpG := 0, cmpH := 0
    ecr := 0, der := 0x2002000F#32, countA := 0, countB := 0
    lctrl1 := 0, lctrl2 := 0, ictrl := 0, bar := 0
    reservation := none
    decPending := false, irq := false, nmiPending := false, nmiAtReset := false, mebPending := false
    resetAsserted := false, checkstop := false
    debugEnabled := false, inDebug := false, freeze := false
    port := .idle
    icache := .empty
    stale := []
    mem := []
    platform := .plain
    events := []
    intrusions := []
    cutShort := false
    freeCount := 0
    lbus := []
    excTaken := none }

end Sys2Proof.Machine
end

