-- ==== Sys2Proof/Machine/Memory.lean ====
section
/-! DEFINITION. Memory as a list of cells, the platform's map, and how an operand is cut into L-bus cycles
(20_memory.md R130 to R139, R149, R152; 61_development_support.md R741). -/

namespace Sys2Proof.Machine

open Sys2Proof

/-- What a byte that nothing has written reads as. DESIGN CHOICE, unsafe (log 4). -/
def unlistedByte : Byte := 0

/-- The byte at an address. -/
def memRead : List Host.Cell → Nat → Byte
  | [], _ => unlistedByte
  | (k, v) :: rest, a => if a = k then v else memRead rest a

/-- Store a byte, keeping the addresses rising and no entry equal to an unlisted byte. -/
def memWrite : List Host.Cell → Nat → Byte → List Host.Cell
  | [], a, b => if b = unlistedByte then [] else [(a, b)]
  | (k, v) :: rest, a, b =>
    if a < k then (if b = unlistedByte then (k, v) :: rest else (a, b) :: (k, v) :: rest)
    else if a = k then (if b = unlistedByte then rest else (a, b) :: rest)
    else (k, v) :: memWrite rest a b

/-- The cells lie above `low`, below 2^32, with rising addresses, and none equals an unlisted byte. -/
def Memory.wfFrom : Nat → List Host.Cell → Bool
  | _, [] => true
  | low, (k, v) :: rest => decide (low ≤ k) && decide (k < 2 ^ 32) && decide (v ≠ unlistedByte) && Memory.wfFrom (k + 1) rest

/-- The canonical form of memory. -/
def Memory.wf (m : List Host.Cell) : Bool := Memory.wfFrom 0 m

/-- The byte of memory at an address (20_memory.md R134: `M[a]`). -/
def State.byteAt (s : State) (a : Word) : Byte := memRead s.mem a.toNat

/-- The word `M[a] || M[a+1] || M[a+2] || M[a+3]` (20_memory.md R134). -/
def State.wordAt (s : State) (a : Word) : Word :=
  (s.byteAt a ++ s.byteAt (a + 1) ++ s.byteAt (a + 2) ++ s.byteAt (a + 3) : BitVec 32)

/-- The kinds of access of the predicate BusError (20_memory.md R149). -/
inductive AccessKind where
  | fetch
  | load
  | store
deriving DecidableEq, Repr

/-- Does an access of this kind in the region end in a bus error? -/
def MapRegion.errs (r : MapRegion) : AccessKind → Bool
  | .fetch => r.errFetch
  | .load => r.errLoad
  | .store => r.errStore

/-- Does the region contain one of the `size` bytes at `a`? The access is aligned, so it does not wrap. -/
def MapRegion.touches (r : MapRegion) (a : Word) (size : Nat) : Bool :=
  decide (r.first.toNat ≤ a.toNat + (size - 1)) && decide (a.toNat ≤ r.last.toNat)

/-- BusError(addr, kind) of MEMORY_MAP (20_memory.md R149, 92_eei_decisions.md D21). -/
def State.busError (s : State) (kind : AccessKind) (a : Word) (size : Nat) : Bool :=
  s.platform.map.any fun r => r.touches a size && r.errs kind

/-- CacheInhibited(addr) of MEMORY_MAP (20_memory.md R148). -/
def State.cacheInhibited (s : State) (a : Word) : Bool :=
  s.platform.map.any fun r => r.touches a 1 && r.inhibited

/-- One aligned transfer of an access: the effective address, the address on the bus, the number of bytes. -/
structure Cycle where
  ea : Word
  addr : Word
  size : Nat
deriving DecidableEq, Repr

/-- The largest naturally aligned transfer at `ea` of at most `n` bytes (n > 0). -/
def cycleSize (ea : Word) (n : Nat) : Nat :=
  if ea.toNat % 4 = 0 ∧ 4 ≤ n then 4 else if ea.toNat % 2 = 0 ∧ 2 ≤ n then 2 else 1

/-- The fewest naturally aligned cycles that cover `n` bytes from `ea`, in ascending order (92_eei_decisions.md D59); the
first argument bounds the number of cycles. Addresses wrap modulo 2^32 (20_memory.md R132). -/
def splitCycles : Nat → Word → Nat → List Cycle
  | 0, _, _ => []
  | fuel + 1, ea, n =>
    if n = 0 then []
    else
      let k := cycleSize ea n
      { ea := ea, addr := ea, size := k } :: splitCycles fuel (ea + BitVec.ofNat 32 k) (n - k)

/-- The little-endian modification of an address, by operand size (20_memory.md R138). -/
def leModify (a : Word) (n : Nat) : Word :=
  if n = 4 then a ^^^ 4 else if n = 2 then a ^^^ 6 else if n = 1 then a ^^^ 7 else a

/-- The cycles of an operand of `n` bytes (20_memory.md R138, R139, R152). A little-endian operand of 1, 2 or 4 bytes is
aligned and is one cycle at the modified address; a double is two word cycles, the lower address first (D26). -/
def State.operandCycles (s : State) (ea : Word) (n : Nat) : List Cycle :=
  if msrLE s.msr && n != 8 then [{ ea := ea, addr := leModify ea n, size := n }] else splitCycles n ea n

/-- A number from its bytes, the most significant first. -/
def natOfBytes : List Byte → Nat
  | [] => 0
  | b :: rest => b.toNat * 256 ^ rest.length + natOfBytes rest

/-- The `n` low bytes of a double word, the most significant first. -/
def bytesOf : Nat → Dword → List Byte
  | 0, _ => []
  | n + 1, v => (v >>> (8 * n)).setWidth 8 :: bytesOf n v

end Sys2Proof.Machine
end

