-- ==== Sys2Proof/Machine/ICache.lean ====
section
/-! DEFINITION. The instruction cache, its commands, and the words a fetch may still see in an older version
(20_memory.md R168 to R185; 10_state.md R54 to R56; 92_eei_decisions.md D11, D12, D28, D29). -/

namespace Sys2Proof.Machine

open Sys2Proof

/-- A fresh free value and the state that has drawn it (log 6). -/
def State.draw (s : State) : Dword × State :=
  (Config.freeBits s.freeCount, { s with freeCount := s.freeCount + 1 })

/-! Addresses (R168): A[0:20] the tag, A[21:27] the set, A[28:29] the word, A[0:27] the line. -/

def tagOf (a : Word) : BitVec 21 := bits a 0 21
def setOf (a : Word) : BitVec 7 := bits a 21 7
def wordIndexOf (a : Word) : BitVec 2 := bits a 28 2
def lineOf (a : Word) : BitVec 28 := bits a 0 28
/-- The address of word `k` of the line of `a`. -/
def lineWordAddr (a : Word) (k : BitVec 2) : Word := (lineOf a ++ k ++ 0#2 : BitVec 32)

/-- Word `k` of four. -/
def pickWord (k : BitVec 2) (w0 w1 w2 w3 : Word) : Word :=
  if k = 0 then w0 else if k = 1 then w1 else if k = 2 then w2 else w3

def CacheLine.pick (l : CacheLine) (k : BitVec 2) : Word := pickWord k l.word0 l.word1 l.word2 l.word3
def LineBuffer.pick (l : LineBuffer) (k : BitVec 2) : Word := pickWord k l.word0 l.word1 l.word2 l.word3

/-- The line matches and is valid (R169). -/
def CacheLine.hits (l : CacheLine) (a : Word) : Bool := l.valid && l.tag == tagOf a

/-- ICCST[IEN] (10_state.md R54). -/
def State.cacheOn (s : State) : Bool := bit s.iccst 0

def ICache.setAt (c : ICache) (k : BitVec 7) : CacheSet := c.sets[k.toNat]'(k.isLt)
def ICache.putSet (c : ICache) (k : BitVec 7) (x : CacheSet) : ICache := { c with sets := c.sets.set k.toNat x k.isLt }

/-- A way of a set: `true` is way 1. -/
def CacheSet.way (x : CacheSet) (w : Bool) : CacheLine := if w then x.way1 else x.way0
def CacheSet.putWay (x : CacheSet) (w : Bool) (l : CacheLine) : CacheSet :=
  if w then { x with way1 := l } else { x with way0 := l }

/-- The way that hits, if any. -/
def CacheSet.hitWay (x : CacheSet) (a : Word) : Option Bool :=
  if x.way0.hits a then some false else if x.way1.hits a then some true else none

/-- The set an address falls in. -/
def State.setFor (s : State) (a : Word) : CacheSet := s.icache.setAt (setOf a)

/-- Is the line of the address in the arrays? -/
def State.inArrays (s : State) (a : Word) : Bool := ((s.setFor a).hitWay a).isSome

/-- The way a miss replaces: an invalid one first, then the least recently used that is not locked; none when both are
locked (R170). DESIGN CHOICE: way 0 when both are invalid (log 31). -/
def CacheSet.victim (x : CacheSet) : Option Bool :=
  if !x.way0.valid then some false
  else if !x.way1.valid then some true
  else if !(x.way x.lru).lock then some x.lru
  else if !(x.way (!x.lru)).lock then some (!x.lru)
  else none

/-- Put the four words of the line of `a`, read from memory, into way `w`; the LRU bit then names the other way. -/
def State.fillWay (s : State) (a : Word) (w lock : Bool) : State :=
  let x := s.setFor a
  let l : CacheLine :=
    { tag := tagOf a, valid := true, lock := lock
      word0 := s.wordAt (lineWordAddr a 0), word1 := s.wordAt (lineWordAddr a 1)
      word2 := s.wordAt (lineWordAddr a 2), word3 := s.wordAt (lineWordAddr a 3) }
  { s with icache := s.icache.putSet (setOf a) { x.putWay w l with lru := !w } }

/-- A fetch bus error on one of the words of the line of `a`. -/
def State.lineError (s : State) (a : Word) : Bool :=
  s.busError .fetch (lineWordAddr a 0) 4 || s.busError .fetch (lineWordAddr a 1) 4 ||
  s.busError .fetch (lineWordAddr a 2) 4 || s.busError .fetch (lineWordAddr a 3) 4

/-- The line of `a` as the burst buffer receives it; a word of an inhibited line is delivered once (R170, R181). -/
def State.burstOf (s : State) (a : Word) (inhibited : Bool) : LineBuffer :=
  { line := lineOf a
    word0 := s.wordAt (lineWordAddr a 0), word1 := s.wordAt (lineWordAddr a 1)
    word2 := s.wordAt (lineWordAddr a 2), word3 := s.wordAt (lineWordAddr a 3)
    inhibited := inhibited
    fresh := 0b1111#4 &&& ~~~(BitVec.twoPow 4 (wordIndexOf a).toNat) }

/-- The buffer delivers the word of `a`. -/
def LineBuffer.serves (b : LineBuffer) (a : Word) : Bool :=
  b.line == lineOf a && (!b.inhibited || b.fresh.getLsbD (wordIndexOf a).toNat)

/-- The buffer after delivering the word of `a`. -/
def LineBuffer.used (b : LineBuffer) (a : Word) : LineBuffer :=
  { b with fresh := b.fresh &&& ~~~(BitVec.twoPow 4 (wordIndexOf a).toNat) }

/-- A buffer, if it delivers the word of `a`. -/
def servingBuffer (b : Option LineBuffer) (a : Word) : Option LineBuffer := b.filter (·.serves a)

/-- A way of the arrays as a line buffer (R168). -/
def CacheLine.asBuffer (l : CacheLine) (a : Word) : LineBuffer :=
  { line := lineOf a, word0 := l.word0, word1 := l.word1, word2 := l.word2, word3 := l.word3
    inhibited := false, fresh := 0 }

/-- What a fetch gives: a word, or a bus error on the requested word. -/
inductive Fetched where
  | word (w : Word) (s : State)
  | busError (s : State)

/-- The requested word from the bus, and what the miss leaves in the buffers and the arrays (R170, R171, R181): with an error
on another word the burst buffer is invalid; a cache-inhibited line, and while FREEZE is asserted every line, goes to the
burst buffer only. DESIGN CHOICE (log 31): an error on the requested word leaves the burst buffer as it was. -/
def State.fetchMiss (s : State) (a : Word) : Fetched :=
  if s.busError .fetch a 4 then .busError s
  else if s.lineError a then .word (s.wordAt a) { s with icache := { s.icache with burst := none } }
  else
    let inhibited := s.cacheInhibited a || s.freeze
    let t := { s with icache := { s.icache with burst := some (s.burstOf a inhibited) } }
    if inhibited then .word (s.wordAt a) t
    else
      match (s.setFor a).victim with
      | none => .word (s.wordAt a) t
      | some w => .word (s.wordAt a) (t.fillWay a w false)

/-- A fetch of the word at bus address `a` (R145, R169 to R171): from the arrays, from the burst buffer, from the line buffer, or
from the bus. With the cache disabled every fetch goes to the bus. DESIGN CHOICE (log 31): of copies of one line the arrays serve
first, then the burst buffer, then the line buffer; a word served by a buffer leaves the LRU bit; with the cache disabled the two
buffers are neither used nor filled, and keep what they hold. -/
def State.fetchThrough (s : State) (a : Word) : Fetched :=
  if !s.cacheOn then (if s.busError .fetch a 4 then .busError s else .word (s.wordAt a) s)
  else
    let x := s.setFor a
    match x.hitWay a with
    | some w =>
      let c := s.icache.putSet (setOf a) { x with lru := !w }
      .word ((x.way w).pick (wordIndexOf a)) { s with icache := { c with line := some ((x.way w).asBuffer a) } }
    | none =>
      match servingBuffer s.icache.burst a, servingBuffer s.icache.line a with
      | some b, _ => .word (b.pick (wordIndexOf a)) { s with icache := { s.icache with burst := some (b.used a) } }
      | none, some b => .word (b.pick (wordIndexOf a)) s
      | none, none => s.fetchMiss a

/-- The state a fetch leaves. -/
def Fetched.state : Fetched → State
  | .word _ s => s
  | .busError s => s

/-- `n` fetches down predicted branch paths, of free addresses (R171): their effects on the arrays and the buffers. A bus error
on one is no exception. -/
def State.predictedFetches : Nat → State → State
  | 0, s => s
  | n + 1, s =>
    let d := s.draw
    State.predictedFetches n (d.2.fetchThrough (d.1.setWidth 32 &&& 0xFFFFFFFC#32)).state

/-- What the fetches down predicted paths do between two instructions with the cache enabled: any number of them up to the four
words of the prefetch queue, by a free value (R171, D29 (b); log 24). -/
def State.predictedPath (s : State) : State :=
  if s.cacheOn then let d := s.draw; State.predictedFetches (d.1.toNat % 5) d.2 else s

/-! Stale words (R184, D29 (a)). -/

/-- The older versions of the word at `a` that a fetch may deliver. -/
def State.oldVersions (s : State) (a : Word) : List Word :=
  (s.stale.filter fun e => e.addr == a && (e.queued || e.buffered || (s.cacheOn && e.cached))).map (·.old)

/-- One word of a list, chosen by a free value. -/
def chooseWord (d : Dword) (first : Word) (others : List Word) : Word :=
  (first :: others).getD (d.toNat % (others.length + 1)) first

/-- InstrFetch of the word at bus address `a`: where the location was modified without the sequence of R184 the word is
drawn between the versions. The fetches down predicted paths follow. -/
def State.fetchAt (s : State) (a : Word) : Fetched :=
  match s.fetchThrough a with
  | .busError t => .busError t
  | .word w t =>
    match t.oldVersions a with
    | [] => .word w t.predictedPath
    | olds => let d := t.draw; .word (chooseWord d.1 w (t.wordAt a :: olds)) d.2.predictedPath

/-- The burst buffer or the line buffer holds the line of `a`. -/
def State.inBuffers (s : State) (a : Word) : Bool :=
  let holds (b : Option LineBuffer) : Bool := b.any (·.line == lineOf a)
  holds s.icache.burst || holds s.icache.line

/-- Record that the word of `a` is about to change from `old`. -/
def State.noteStale (s : State) (a old new : Word) : State :=
  if old = new then s
  else
    { s with stale :=
        { addr := a, old := old, queued := true, buffered := s.cacheOn || s.inBuffers a, cached := s.cacheOn || s.inArrays a }
          :: s.stale }

/-- Change what may hold the older versions, and forget those that nothing holds any longer. -/
def State.remark (s : State) (f : StaleWord → StaleWord) : State :=
  { s with stale := (s.stale.map f).filter fun e => e.queued || e.buffered || e.cached }

/-- Discard the copies in the prefetch queue (R155; context synchronization, R156); the two buffers keep theirs. -/
def State.flushQueue (s : State) : State := s.remark fun e => { e with queued := false }

/-- `isync`: the copies in the prefetch queue and in the buffers are discarded (R155, R184). -/
def State.flushFetch (s : State) : State :=
  let t := s.remark fun e => { e with queued := false, buffered := false }
  { t with icache := { t.icache with burst := none, line := none } }

/-- A version that leaves the arrays: the prefetch queue and the buffers may have taken it from them before, and keep it until
`isync` (R155, R184). -/
def StaleWord.leaveArrays (e : StaleWord) : StaleWord :=
  { e with queued := true, buffered := e.buffered || e.cached, cached := false }

/-- Lines that satisfy `p` are made invalid: their older versions leave the arrays (R173, R174, R184). -/
def State.uncacheStale (s : State) (p : Word → Bool) : State :=
  s.remark fun e => if p e.addr then e.leaveArrays else e

/-- The arrays are no longer looked up: what was prefetched from them may stay in the queue until `isync` (R172, R184). -/
def State.prefetchedStale (s : State) : State := s.remark fun e => { e with queued := e.queued || e.cached }

/-! Commands (R172 to R180). -/

/-- A line made invalid, unless it is locked (R174, D28). -/
def CacheLine.invalidate (l : CacheLine) : CacheLine := if l.lock then l else { l with valid := false }

/-- Is the line of `a` in the arrays and locked? -/
def State.lockedLine (s : State) (a : Word) : Bool :=
  match (s.setFor a).hitWay a with
  | some w => ((s.setFor a).way w).lock
  | none => false

/-- A buffer that holds the line of `a` is emptied. -/
def dropBuffer (a : Word) : Option LineBuffer → Option LineBuffer
  | some b => if b.line == lineOf a then none else some b
  | none => none

/-- `icbi`: the block with the byte at `a` is made invalid; a locked line stays (R173, D28). -/
def State.invalidateBlock (s : State) (a : Word) : State :=
  if s.lockedLine a then s
  else
    let x := s.setFor a
    let c :=
      match x.hitWay a with
      | some w => s.icache.putSet (setOf a) (x.putWay w (x.way w).invalidate)
      | none => s.icache
    { s with icache := { c with burst := dropBuffer a c.burst, line := dropBuffer a c.line } }.uncacheStale
      fun b => lineOf b == lineOf a

/-- Invalidate all, one set: the LRU bit points to an unlocked way, to way zero if neither is locked (R174). DESIGN CHOICE: it
keeps its value when both are locked (log 31). -/
def CacheSet.invalidateAll (x : CacheSet) : CacheSet :=
  { way0 := x.way0.invalidate, way1 := x.way1.invalidate
    lru := if x.way0.lock && x.way1.lock then x.lru else x.way0.lock }

/-- Invalidate all (R174). -/
def State.invalidateAll (s : State) : State :=
  let t := s.uncacheStale fun b => !s.lockedLine b
  { t with icache := { sets := t.icache.sets.map CacheSet.invalidateAll, burst := none, line := none } }

/-- A line unlocked; of an invalid one no operation is performed (R177). -/
def CacheLine.unlock (l : CacheLine) : CacheLine := if l.valid then { l with lock := false } else l

/-- Unlock all (R177). -/
def State.unlockAll (s : State) : State :=
  { s with icache := { s.icache with
      sets := s.icache.sets.map fun x => { x with way0 := x.way0.unlock, way1 := x.way1.unlock } } }

/-- Unlock the line of `a` if it is in the cache (R176). DESIGN CHOICE (log 13): the LRU bit of its set stays. -/
def State.unlockLine (s : State) (a : Word) : State :=
  let x := s.setFor a
  match x.hitWay a with
  | some w => { s with icache := s.icache.putSet (setOf a) (x.putWay w (x.way w).unlock) }
  | none => s

/-- Load & lock the line of `a` (R175): a line in the arrays is locked; otherwise the miss sequence brings it to the burst buffer
and to a way that is not locked, and it is locked. A bus error sets CCER1 and leaves the burst buffer invalid (R171), no way to
lock sets CCER2, and nothing is locked. DESIGN CHOICE (log 13): CCER2 alone when both ways are locked, without a fetch, whatever
the line is; a line of a cache-inhibited region goes to the burst buffer only and is not locked; the command does the same with
the cache disabled; the lock of a line in the arrays leaves the LRU bit of its set; a line that only the burst buffer or the line
buffer holds is not in the cache, and is fetched from memory. -/
def State.loadLock (s : State) (a : Word) : State :=
  let x := s.setFor a
  match x.hitWay a with
  | some w =>
    { s with icache := s.icache.putSet (setOf a) (x.putWay w { x.way w with lock := true }) }
  | none =>
    if x.way0.valid && x.way0.lock && x.way1.valid && x.way1.lock then { s with iccst := setBit s.iccst 11 true }
    else if s.lineError a then { s with iccst := setBit s.iccst 10 true, icache := { s.icache with burst := none } }
    else
      let t := { s with icache := { s.icache with burst := some (s.burstOf a (s.cacheInhibited a)) } }
      if s.cacheInhibited a then t
      else
        match x.victim with
        | some w => t.fillWay a w true
        | none => { s with iccst := setBit s.iccst 11 true }

/-- A write to ICCST executes the command in bits 4:6 on the address in ICADR; CMD reads back, IEN and the error bits of the
value are ignored (R172 to R179, D11, D12). DESIGN CHOICE (log 31): enable and disable leave the burst buffer and the line
buffer as they are, and they serve again when the cache is enabled again. -/
def State.cacheCommand (s : State) (v : Word) : State :=
  let s := { s with iccst := insertBits s.iccst 0x0E000000#32 v }
  match (bits v 4 3).toNat with
  | 1 => { s with iccst := setBit s.iccst 0 true }
  | 2 => { s.prefetchedStale with iccst := setBit s.iccst 0 false }
  | 3 => s.loadLock s.icadr
  | 4 => s.unlockLine s.icadr
  | 5 => s.unlockAll
  | 6 => s.invalidateAll
  | _ => s

/-- The tag word of a line (10_state.md R56). -/
def tagWord (tag : BitVec 21) (valid lock lru : Bool) : Word :=
  (tag ++ 0#1 ++ BitVec.ofBool valid ++ BitVec.ofBool lock ++ BitVec.ofBool lru ++ 0#7 : BitVec 32)

/-- A read of ICDAT (10_state.md R55, R56; R180): ICADR[18] selects the data array, [19] the way, [21:27] the set, [28:29] the
word. The arrays are read as they are: what is free in them was drawn when it came in (R185, D29 (b); `State.predictedPath`). -/
def State.readIcdat (s : State) : Word :=
  let x := s.icache.setAt (bits s.icadr 21 7)
  let l := x.way (bit s.icadr 19)
  if bit s.icadr 18 then l.pick (bits s.icadr 28 2) else tagWord l.tag l.valid l.lock x.lru

end Sys2Proof.Machine
end

