-- ==== Sys2Proof/Machine/Ops.lean ====
section
/-! DEFINITION. The named operations over registers and memory, taking an exception and returning from one
(10_state.md; 20_memory.md R130 to R166; 60_exceptions.md R630 to R673). -/

namespace Sys2Proof.Machine

open Sys2Proof

/-- What a meaning answers. -/
abbrev Result := Host.Outcome State Fault Refusal

/-! Registers (10_state.md R32, R33; 20_memory.md R131). -/

/-- GPR[n]. -/
def State.r (s : State) (n : Reg) : Word := s.gpr[n.toNat]'(n.isLt)
/-- GPR[n] <- v. No register is hardwired (R32). -/
def State.setR (s : State) (n : Reg) (v : Word) : State := { s with gpr := s.gpr.set n.toNat v n.isLt }
/-- FPR[n]. -/
def State.f (s : State) (n : Reg) : Dword := s.fpr[n.toNat]'(n.isLt)
/-- FPR[n] <- v. -/
def State.setF (s : State) (n : Reg) (v : Dword) : State := { s with fpr := s.fpr.set n.toNat v n.isLt }
/-- `(rA|0)`: the value 0 for rA = 0 (00_scope.md R10, 10_state.md R32). -/
def State.rA0 (s : State) (n : Reg) : Word := if n = 0 then 0 else s.r n

/-- The next sequential instruction (10_state.md R36). -/
def State.advance (s : State) : State := { s with pc := s.pc + 4 }

/-- A state as the answer of a meaning that goes on to CIA + 4. -/
def nextInstr (s : State) : Result := .next s.advance

/-! Exceptions (60_exceptions.md R636, R652 to R655; 62_debug_mode_and_port.md R750, R753, R780). -/

/-- The exceptions of Table 6-3, but for reset. -/
inductive Exc where
  | machineCheck
  | external
  | alignment
  | program
  | fpUnavailable
  | decrementer
  | systemCall
  | trace
  | fpAssist
  | softwareEmulation
  | dataBreakpoint
  | instrBreakpoint
  | maskableBreakpoint
  | nonMaskableBreakpoint
deriving DecidableEq, Repr

/-- The vector offset (R636). -/
def Exc.offset : Exc → Word
  | .machineCheck => 0x200
  | .external => 0x500
  | .alignment => 0x600
  | .program => 0x700
  | .fpUnavailable => 0x800
  | .decrementer => 0x900
  | .systemCall => 0xC00
  | .trace => 0xD00
  | .fpAssist => 0xE00
  | .softwareEmulation => 0x1000
  | .dataBreakpoint => 0x1C00
  | .instrBreakpoint => 0x1D00
  | .maskableBreakpoint => 0x1E00
  | .nonMaskableBreakpoint => 0x1F00

/-- The bit of ECR and DER (62_debug_mode_and_port.md R750, R780). -/
def Exc.causeBit : Exc → Nat
  | .machineCheck => 3
  | .external => 6
  | .alignment => 7
  | .program => 8
  | .fpUnavailable => 9
  | .decrementer => 10
  | .systemCall => 13
  | .trace => 14
  | .fpAssist => 15
  | .softwareEmulation => 17
  | .dataBreakpoint => 28
  | .instrBreakpoint => 29
  | .maskableBreakpoint => 30
  | .nonMaskableBreakpoint => 31

/-- ECR[CHSTP] and DER[CHSTPE]. -/
def chstpBit : Nat := 2

/-- The base of the vectors (R638). -/
def vectorBase (msr : Word) : Word := if msrIP msr then 0xFFF00000 else 0

/-- The MSR after entry (R652): EE, PR, FP, FE0, SE, BE, FE1, RI cleared, LE from ILE, ME cleared by a machine check; ILE, IP
and the reserved bits stay. DEDUCED (log 32): R652 decides where the MSR values printed in examples (a) and (b) of R716 differ. -/
def Exc.entryMsr (x : Exc) (msr : Word) : Word :=
  let m := msr &&& 0x00011040#32
  let m := if x = .machineCheck then setBit m 19 false else m
  setBit m 31 (msrILE msr)

/-- SRR1 at entry: the exception's information and MSR[16:31] (R654). -/
def srr1Of (info : BitVec 16) (msr : Word) : Word := (info ++ bits msr 16 16 : BitVec 32)

/-- BAR at entry (R655): unchanged by a program exception, set by the data breakpoint itself, otherwise a free value. -/
def State.entryBar (s : State) (x : Exc) : State :=
  if x = .program ∨ x = .dataBreakpoint then s
  else let d := s.draw; { d.2 with bar := d.1.setWidth 32 }

/-- Where execution goes on after an entry (R653): debug mode when it is enabled and the DER bit is set, else the vector. The DER
bit also asserts FREEZE (62_debug_mode_and_port.md R750, R755). -/
def State.enterHandler (s : State) (causeBit : Nat) (offset : Word) : State :=
  let t := { s with freeze := s.freeze || bit s.der causeBit }
  if s.debugEnabled && bit s.der causeBit then { t with inDebug := true }
  else { t with pc := vectorBase s.msr + offset }

/-- When an exception is taken (R640; Table 6-2): system call, trace, data breakpoint and the floating-point enabled program
exception (SRR1[11]) after the instruction, the others before it. -/
def Exc.classOf (x : Exc) (info : BitVec 16) : ExcClass :=
  if x = .systemCall ∨ x = .trace ∨ x = .dataBreakpoint ∨ (x = .program ∧ info.getLsbD 4) then .after else .before

/-- Taking an exception, `Take` of R653: `srr0` is the address saved and `info` is SRR1[0:15]. DSISR and DAR are written by the
caller. In debug mode only the ECR bit, the port's exception latch and the reservation change (62_debug_mode_and_port.md
R753, D62; 20_memory.md R164 (c)). -/
def State.takeVia (s : State) (x : Exc) (causeBit : Nat) (srr0 : Word) (info : BitVec 16) : State :=
  let t := { s with ecr := setBit s.ecr causeBit true, reservation := none, excTaken := some (x.classOf info) }
  if s.inDebug then { t with port := { t.port with exc := true } }
  else
    let u := { t with
      srr0 := srr0 &&& 0xFFFFFFFC#32
      srr1 := srr1Of info s.msr
      msr := x.entryMsr s.msr }
    ((u.entryBar x).enterHandler causeBit x.offset).flushQueue

/-- Taking an exception under its own ECR bit. -/
def State.take (s : State) (x : Exc) (srr0 : Word) (info : BitVec 16) : State :=
  s.takeVia x x.causeBit srr0 info

/-- An exception of class Before: SRR0 = CIA, SRR1[0:15] = 0 (R640, R654). -/
def raise (x : Exc) (s : State) : Result := .next (s.take x s.pc 0)

/-- Software emulation exception (R690). -/
def softwareEmulation (s : State) : Result := raise .softwareEmulation s

/-- Program exception, privileged instruction: SRR1[13] (R680 (a)). -/
def privileged (s : State) : Result := .next (s.take .program s.pc 0x0004)

/-- Program exception, trap: SRR1[14] (R680 (b)). -/
def trapException (s : State) : Result := .next (s.take .program s.pc 0x0002)

/-- Run `k` in supervisor state, else the privileged program exception (49_processor_control_sync_cache.md R585). -/
def supervisorOnly (s : State) (k : State → Result) : Result := if msrPR s.msr then privileged s else k s

/-- Run `k` with MSR[FP] = 1, else the floating-point unavailable exception (R686). -/
def fpAvailable (s : State) (k : State → Result) : Result :=
  if msrFP s.msr then k s else raise .fpUnavailable s

/-- DSISR[0:26] of an instruction word, and the five bits [27:31] (R673). -/
def dsisrOf (w : Word) (low : BitVec 5) : Word :=
  if bits w 0 6 = 31#6 then
    (0#15 ++ bits w 29 2 ++ bits w 25 1 ++ bits w 21 4 ++ bits w 6 5 ++ low : BitVec 32)
  else (0#15 ++ 0#2 ++ bits w 5 1 ++ bits w 1 4 ++ bits w 6 5 ++ low : BitVec 32)

/-- DSISR[27:31] on an alignment exception (R673): I[11:15] or a register the instruction does not load, for `lmw`, `lswi` and
`lswx` (`loads` tells the registers loaded); any value for the others. -/
def dsisrLow (w : Word) (loads : Option (Reg → Bool)) (d : Dword) : BitVec 5 :=
  match loads with
  | none => d.setWidth 5
  | some p => if p (d.setWidth 5) then bits w 11 5 else d.setWidth 5

/-- Alignment exception (R672): DAR the effective address, DSISR of R673; in debug mode neither is written (D62). -/
def alignmentOf (i : Instr) (loads : Option (Reg → Bool)) (ea : Word) (s : State) : Result :=
  if s.inDebug then raise .alignment s
  else
    let d := s.draw
    raise .alignment { d.2 with dar := ea, dsisr := dsisrOf (encode i) (dsisrLow (encode i) loads d.1) }

/-- Alignment exception of an instruction other than `lmw`, `lswi` and `lswx`. -/
def alignment (i : Instr) (ea : Word) (s : State) : Result := alignmentOf i none ea s

/-- What a bus error does, by MSR[ME], debug mode and DER (R664, R751): `update` writes DSISR and DAR when the exception is
entered. Checkstop changes ECR[CHSTP] alone (R665). In debug mode it is reported to the port (62_debug_mode_and_port.md R753). -/
def State.machineCheck (s : State) (info : BitVec 16) (update : State → State) : State :=
  if s.inDebug then s.take .machineCheck s.pc info
  else if msrME s.msr then (update s).take .machineCheck s.pc info
  else if s.debugEnabled && bit s.der chstpBit then (update s).takeVia .machineCheck chstpBit s.pc info
  else { s with checkstop := true, ecr := setBit s.ecr chstpBit true, excTaken := some .before }

/-- Machine check on a load or store: DAR the effective address of the failing cycle, DSISR with I[11:15] (R664, D57). -/
def dataMachineCheck (i : Instr) (cycleEa : Word) (s : State) : Result :=
  .next (s.machineCheck 0 fun t => { t with dar := cycleEa, dsisr := dsisrOf (encode i) (bits (encode i) 11 5) })

/-- Machine check on an instruction fetch: SRR1[1] (R664). -/
def State.fetchMachineCheck (s : State) : State := s.machineCheck 0x4000 id

/-- FPSCR[FEX] (10_state.md R40). -/
def fpscrFEX (f : Word) : Bool := bit f 1

/-- The floating-point enabled program exception, tested after an instruction with the new MSR and FPSCR (R684). -/
def State.fpEnabledTest (s : State) (srr0 : Word) (info : BitVec 16) : State :=
  if msrFE s.msr && fpscrFEX s.fpscr then s.take .program srr0 info else s

/-- Return from an exception (48_branch_cr_system_trap.md R562; 62_debug_mode_and_port.md R754, R755): MSR[16:31] from SRR1,
NIA from SRR0; FREEZE is negated and debug mode left when no enabled cause is pending; then the test of R684. -/
def State.returnFromException (s : State) : State :=
  let nia := s.srr0 &&& 0xFFFFFFFC#32
  let clean := (s.ecr &&& s.der) = 0
  let t := { s with
    msr := insertBits s.msr 0x0000FFFF#32 s.srr1 &&& msrMask
    freeze := s.freeze && !clean
    inDebug := s.inDebug && !clean
    pc := nia }
  t.flushQueue.fpEnabledTest nia 0x0011

/-! Data accesses (20_memory.md R134 to R140, R149, R152). -/

/-- What an access gives: its result, or the effective address of the first cycle that ended in a bus error. -/
inductive Access (α : Type) where
  | done (v : α) (s : State)
  | busError (ea : Word) (s : State)

/-- The bytes of a cycle. -/
def State.bytesAt (s : State) (a : Word) : Nat → List Byte
  | 0 => []
  | n + 1 => s.byteAt a :: s.bytesAt (a + 1) n

/-- Note a completed cycle for the L-bus comparators. -/
def State.record (s : State) (c : Cycle) (write compares : Bool) (bs : List Byte) : State :=
  { s with lbus := s.lbus ++
      [{ ea := c.ea, addr := c.addr, size := c.size, write := write, data := BitVec.ofNat 32 (natOfBytes bs), compares := compares }] }

/-- Store bytes at rising addresses (modulo 2^32). -/
def putBytes (m : List Host.Cell) (a : Word) : List Byte → List Host.Cell
  | [] => m
  | b :: bs => putBytes (memWrite m a.toNat b) (a + 1) bs

/-- The address of the aligned word of a byte. -/
def wordAddr (a : Word) : Word := a &&& 0xFFFFFFFC#32

/-- Store the bytes of one cycle, which lie in one aligned word, and note the older version for instruction fetch (R184). -/
def State.writeBytes (s : State) (a : Word) (bs : List Byte) : State :=
  let t := { s with mem := putBytes s.mem a bs }
  t.noteStale (wordAddr a) (s.wordAt (wordAddr a)) (t.wordAt (wordAddr a))

/-- The granule of an address, EA[0:26] (R161, R162). -/
def granuleOf (a : Word) : BitVec 27 := bits a 0 27

/-- A byte written by another bus master: it clears a reservation of its granule (20_memory.md R157, R164 (e)). -/
def State.busWrite (s : State) (a : Word) (v : Byte) : State :=
  let t := if s.reservation = some (granuleOf a) then { s with reservation := none } else s
  t.writeBytes a [v]

/-- Bytes written by other bus masters, in order. -/
def State.busWrites (s : State) (l : List Intrusion) : State := l.foldl (fun t i => t.busWrite i.addr i.value) s

/-- Between two data cycles of an instruction, the writes of other bus masters that come there (20_memory.md R152). -/
def State.intrude (s : State) : State :=
  if s.lbus.isEmpty then s
  else
    { s with intrusions := s.intrusions.filter (·.cycle != s.lbus.length) }.busWrites
      (s.intrusions.filter (·.cycle == s.lbus.length))

/-- The writes of other bus masters that were to come during the instruction and have not yet come. -/
def State.settle (s : State) : State := { s with intrusions := [] }.busWrites s.intrusions

/-- Read the cycles in order, with the writes of other bus masters between them (R152); the first bus error ends the access
(R149; 60_exceptions.md R655). -/
def readCycles (compares : Bool) : List Cycle → State → Access (List Byte)
  | [], s => .done [] s
  | c :: cs, s =>
    let s := s.intrude
    if s.busError .load c.addr c.size then .busError c.ea s
    else
      let bs := s.bytesAt c.addr c.size
      match readCycles compares cs (s.record c false compares bs) with
      | .done rest t => .done (bs ++ rest) t
      | .busError e t => .busError e t

/-- The bytes of a store cycle that ended in a bus error: each keeps its old value or has the new one (U21, 91_not_in_source.md
N8), by a free value. -/
def mixBytes (d : Dword) : List Byte → List Byte → Nat → List Byte
  | o :: os, b :: bs, k => (if d.getLsbD k then b else o) :: mixBytes d os bs (k + 1)
  | _, _, _ => []

/-- The state after a store cycle that ended in a bus error. -/
def State.writeFailed (s : State) (a : Word) (bs : List Byte) : State :=
  let d := s.draw
  d.2.writeBytes a (mixBytes d.1 (s.bytesAt a bs.length) bs 0)

/-- Write the cycles in order, with the writes of other bus masters between them (R152); the cycles before a bus error stay in
memory (D43; 60_exceptions.md R640 (c)). -/
def writeCycles (compares : Bool) : List Cycle → List Byte → State → Access Unit
  | [], _, s => .done () s
  | c :: cs, bs, s =>
    let s := s.intrude
    if s.busError .store c.addr c.size then .busError c.ea (s.writeFailed c.addr (bs.take c.size))
    else writeCycles compares cs (bs.drop c.size) ((s.writeBytes c.addr (bs.take c.size)).record c true compares (bs.take c.size))

/-- MemRead of `n` bytes at `ea` (R134, R139), as a number in a double word. `compares` is false for a floating-point double. -/
def State.load (s : State) (ea : Word) (n : Nat) (compares : Bool := true) : Access Dword :=
  match readCycles compares (s.operandCycles ea n) s with
  | .done bs t => .done (BitVec.ofNat 64 (natOfBytes bs)) t
  | .busError e t => .busError e t

/-- MemWrite of the `n` low bytes of a double word at `ea` (R135, R139). -/
def State.store (s : State) (ea : Word) (n : Nat) (v : Dword) (compares : Bool := true) : Access Unit :=
  writeCycles compares (s.operandCycles ea n) (bytesOf n v) s

/-- Little-endian mode and an operand that is not naturally aligned (R140). -/
def State.leMisaligned (s : State) (ea : Word) (n : Nat) : Bool := msrLE s.msr && ea.toNat % n != 0

/-! Condition register (10_state.md R34, R35; 00_scope.md R11, R12). -/

/-- CR field `f`. -/
def crField (cr : Word) (f : BitVec 3) : BitVec 4 := bits cr (4 * f.toNat) 4

/-- CR with field `f` replaced. -/
def setCrField (cr : Word) (f : BitVec 3) (v : BitVec 4) : Word :=
  insertBits cr (0xF0000000#32 >>> (4 * f.toNat)) (v.setWidth 32 <<< (28 - 4 * f.toNat))

/-- The state with CR field `f` replaced. -/
def State.setCr (s : State) (f : BitVec 3) (v : BitVec 4) : State := { s with cr := setCrField s.cr f v }

end Sys2Proof.Machine
end

