-- ==== Sys2Proof/Machine/Breakpoint.lean ====
section
/-! DEFINITION. Watchpoints, internal breakpoints and the breakpoint counters (61_development_support.md R734 to R746;
62_debug_mode_and_port.md R772 to R778). -/

namespace Sys2Proof.Machine

open Sys2Proof

/-- Ev(ct, v, c): 4 equal, 5 less than, 6 greater than, 7 not equal, below 4 not active (R734). -/
def compareEvent (ct : BitVec 3) (v c : Int) : Bool :=
  if ct = 4#3 then v == c
  else if ct = 5#3 then decide (v < c)
  else if ct = 6#3 then decide (c < v)
  else if ct = 7#3 then v != c
  else false

/-! I-bus watchpoints. -/

/-- The event of an I-bus comparator on the word address of the instruction: `k` is the position of its type in ICTRL (R734). -/
def State.iEvent (s : State) (k : Nat) (cmp : Word) : Bool :=
  compareEvent (bits s.ictrl (3 * k) 3) (bits s.pc 0 30).toNat (bits cmp 0 30).toNat

/-- A watchpoint from its two bits of programming: not active, one comparator, or the combination (R735). -/
def watchOf (sel : BitVec 2) (one both : Bool) : Bool := if sel = 2#2 then one else if sel = 3#2 then both else false

/-- IW0 to IW3 of the instruction at CIA (R735); in debug mode instructions do not come over the I-bus (D61). -/
def State.iWatch (s : State) (k : Nat) : Bool :=
  let a := s.iEvent 0 s.cmpA
  let b := s.iEvent 1 s.cmpB
  let c := s.iEvent 2 s.cmpC
  let d := s.iEvent 3 s.cmpD
  !s.inDebug &&
  match k with
  | 0 => watchOf (bits s.ictrl 12 2) a (a && b)
  | 1 => watchOf (bits s.ictrl 14 2) b (a || b)
  | 2 => watchOf (bits s.ictrl 16 2) c (c && d)
  | _ => watchOf (bits s.ictrl 18 2) d (c || d)

/-- A bit of TECR, bit 0 the leftmost. -/
def Port.tecrBit (p : Port) (k : Nat) : Bool := p.tecr.getLsbD (8 - k)

/-- The trap enable of I-bus watchpoint `k`, from software or from the port (R746). -/
def State.iTrapEnabled (s : State) (k : Nat) : Bool := bit s.ictrl (20 + k) || s.port.tecrBit k

/-- BrkUnmasked, which also enables counting (R742 to R744). -/
def State.brkUnmasked (s : State) : Bool := bit s.lctrl2 20 || msrRI s.msr

/-- The number of the source of an I-bus count and of an L-bus count in CNTC (R743). -/
def countsI : BitVec 2 := 1
def countsL : BitVec 2 := 2

/-- One counter on one instruction: the new value and whether it expires (R743, D58). -/
def countDown (source : BitVec 2) (watch enabled : Bool) (c : Word) : Word × Bool :=
  if bits c 30 2 = source ∧ watch ∧ enabled ∧ bits c 0 16 ≠ 0 then
    (c - 0x00010000#32, bits c 0 16 == 1)
  else (c, false)

/-- Both counters on one instruction, with the watchpoints they may count. -/
def State.count (s : State) (source : BitVec 2) (watchA watchB : Bool) : Bool × Bool × State :=
  let a := countDown source watchA s.brkUnmasked s.countA
  let b := countDown source watchB s.brkUnmasked s.countB
  (a.2, b.2, { s with countA := a.1, countB := b.1 })

/-- A trap-enabled, unmasked I-bus watchpoint is asserted (R742). -/
def State.iMatch (s : State) : Bool :=
  s.brkUnmasked &&
  ((s.iWatch 0 && s.iTrapEnabled 0) || (s.iWatch 1 && s.iTrapEnabled 1) ||
   (s.iWatch 2 && s.iTrapEnabled 2) || (s.iWatch 3 && s.iTrapEnabled 3))

/-- IBusBreakpoint(CIA) of R742 with the count of R743 and the ignored first match of R745: the answer and the state after. The
instruction that a breakpoint stops is not retired: the decrement that made its counter expire stands, the other is adjusted back
(R743; DEDUCED for the counter that did not expire, log 27). -/
def State.iBreakpoint (s : State) : Bool × State :=
  let ignored := s.iMatch && bit s.ictrl 28
  let t := if ignored then { s with ictrl := setBit s.ictrl 28 false } else s
  let c := t.count countsI (s.iWatch 0) (s.iWatch 1)
  if (s.iMatch && !ignored) || c.1 || c.2.1 then
    (true, { c.2.2 with
      countA := if c.1 then c.2.2.countA else s.countA
      countB := if c.2.1 then c.2.2.countB else s.countB })
  else (false, c.2.2)

/-- The counter that this instruction's own I-bus watchpoint makes it count, for an access to the counter itself (R743, U17). -/
def State.countsOwnAccess (s : State) (counter : Word) (k : Nat) : Bool :=
  bits counter 30 2 == countsI && s.iWatch k && s.brkUnmasked

/-! L-bus watchpoints. -/

/-- The bits of an address that a cycle of this size compares (R736). -/
def sizeMask (size : Nat) : Word := if size = 4 then 0xFFFFFFFC#32 else if size = 2 then 0xFFFFFFFE#32 else 0xFFFFFFFF#32

/-- EvE and EvF: `ct` the compare type, `rw` the read/write selection (R736). -/
def BusCycle.addressEvent (c : BusCycle) (ct : BitVec 3) (rw : BitVec 2) (cmp : Word) : Bool :=
  compareEvent ct (c.addr &&& sizeMask c.size).toNat (cmp &&& sizeMask c.size).toNat &&
  (if rw = 2#2 then !c.write else if rw = 3#2 then c.write else true)

/-- The data of a cycle in its big-endian byte lanes (R737). -/
def BusCycle.lanes (c : BusCycle) : Word := c.data <<< (8 * (4 - c.size - c.addr.toNat % 4))

/-- Lane `i` carries data of the cycle (R737). -/
def BusCycle.valid (c : BusCycle) (i : Nat) : Bool := decide (c.addr.toNat % 4 ≤ i) && decide (i < c.addr.toNat % 4 + c.size)

/-- The programming of a data comparator: type, size, signed, byte mask, value (R737; 62_debug_mode_and_port.md R776). -/
structure DataComparator where
  ct : BitVec 3
  size : BitVec 2
  signed : Bool
  mask : BitVec 4
  value : Word
deriving DecidableEq, Repr

/-- Comparators G and H. -/
def State.comparatorG (s : State) : DataComparator :=
  { ct := bits s.lctrl1 6 3, size := bits s.lctrl1 16 2, signed := bit s.lctrl1 20, mask := bits s.lctrl1 22 4, value := s.cmpG }
def State.comparatorH (s : State) : DataComparator :=
  { ct := bits s.lctrl1 9 3, size := bits s.lctrl1 18 2, signed := bit s.lctrl1 21, mask := bits s.lctrl1 26 4, value := s.cmpH }

/-- A byte lane is masked. -/
def DataComparator.masked (g : DataComparator) (i : Nat) : Bool := g.mask.getLsbD (3 - i)

/-- The comparison of `w` bits from bit 8 * i on. -/
def DataComparator.compares (g : DataComparator) (d : Word) (i w : Nat) : Bool :=
  let x := bits d (8 * i) w
  let y := bits g.value (8 * i) w
  if g.signed then compareEvent g.ct x.toInt y.toInt else compareEvent g.ct x.toNat y.toNat

/-- Gmatch[i] and Hmatch[i] (R737, D59); a floating-point double never matches (R739). -/
def DataComparator.matchLane (g : DataComparator) (c : BusCycle) (i : Nat) : Bool :=
  c.compares &&
  (if g.size = 3#2 then c.valid i && !g.masked i && g.compares c.lanes i 8
   else if g.size = 2#2 then
     i % 2 == 0 && c.valid i && c.valid (i + 1) && !g.masked i && !g.masked (i + 1) && g.compares c.lanes i 16
   else if g.size = 1#2 then i == 0 && c.size == 4 && g.mask == 0#4 && g.compares c.lanes 0 32
   else false)

/-- A condition on one of the four lanes. -/
def anyLane (p : Nat → Bool) : Bool := p 0 || p 1 || p 2 || p 3

/-- The four L-data events (R738). -/
def State.dataEvent (s : State) (c : BusCycle) (sel : BitVec 2) : Bool :=
  let g := s.comparatorG.matchLane c
  let h := s.comparatorH.matchLane c
  if sel = 0#2 then anyLane g
  else if sel = 1#2 then anyLane h
  else if sel = 2#2 then anyLane fun i => g i && h i
  else anyLane fun i => g i || h i

/-- The four L-address events (R738). -/
def State.addressEvent (s : State) (c : BusCycle) (sel : BitVec 2) : Bool :=
  let e := c.addressEvent (bits s.lctrl1 0 3) (bits s.lctrl1 12 2) s.cmpE
  let f := c.addressEvent (bits s.lctrl1 3 3) (bits s.lctrl1 14 2) s.cmpF
  if sel = 0#2 then e else if sel = 1#2 then f else if sel = 2#2 then e && f else e || f

/-- LWx(cyc) (R738): `x` is 0 or 1, and `iw` tells the I-bus watchpoints of the instruction. -/
def State.lWatchCycle (s : State) (iw : Nat → Bool) (x : Nat) (c : BusCycle) : Bool :=
  let b := 10 * x
  bit s.lctrl2 b &&
  (!bit s.lctrl2 (b + 3) || iw (bits s.lctrl2 (b + 1) 2).toNat) &&
  (!bit s.lctrl2 (b + 6) || s.addressEvent c (bits s.lctrl2 (b + 4) 2)) &&
  (!bit s.lctrl2 (b + 9) || s.dataEvent c (bits s.lctrl2 (b + 7) 2))

/-- LWx(instruction): one report for all its cycles (R738, R740). -/
def State.lWatch (s : State) (iw : Nat → Bool) (x : Nat) : Bool := s.lbus.any (s.lWatchCycle iw x)

/-- The trap enable of L-bus watchpoint `x` (R746). -/
def State.lTrapEnabled (s : State) (x : Nat) : Bool := bit s.lctrl2 (28 + x) || s.port.tecrBit (4 + x)

/-- The data breakpoint after an instruction that has completed (R738, R743): the counters count, and when a watchpoint breaks
BAR takes the effective address of the first cycle it was true for, and the exception is taken with SRR0 = `next`. DESIGN CHOICE:
where debug mode only reports the breakpoint (62_debug_mode_and_port.md R753), BAR keeps its value (log 20). -/
def State.lBreakpoint (s : State) (iw : Nat → Bool) (next : Word) : Bool × State :=
  let c := s.count countsL (s.lWatch iw 0) (s.lWatch iw 1)
  let break0 := (s.brkUnmasked && s.lWatch iw 0 && s.lTrapEnabled 0) || c.1
  let break1 := (s.brkUnmasked && s.lWatch iw 1 && s.lTrapEnabled 1) || c.2.1
  let t := c.2.2
  match s.lbus.find? fun y => (break0 && s.lWatchCycle iw 0 y) || (break1 && s.lWatchCycle iw 1 y) with
  | some y => (true, { t with bar := if s.inDebug then s.bar else y.ea }.take .dataBreakpoint next 0)
  | none => (false, t)

end Sys2Proof.Machine
end

