-- ==== Sys2Proof/Machine/Operands.lean ====
section
/-! DEFINITION. Operand forms: immediates, effective addresses, masks and rotation (00_scope.md R10; 20_memory.md R131). -/

namespace Sys2Proof.Machine

open Sys2Proof

/-- `sext_16`. -/
def sext16 (v : BitVec 16) : Word := v.signExtend 32
/-- `zext_16`. -/
def zext16 (v : BitVec 16) : Word := v.setWidth 32
/-- `v || 0x0000`. -/
def high16 (v : BitVec 16) : Word := (v ++ 0#16 : BitVec 32)

/-- Register indirect with immediate index: EA = (rA|0) + sext_16(d) (20_memory.md R131). -/
def State.eaD (s : State) (rA : Reg) (d : BitVec 16) : Word := s.rA0 rA + sext16 d
/-- Register indirect with index: EA = (rA|0) + GPR[rB] (20_memory.md R131). -/
def State.eaX (s : State) (rA rB : Reg) : Word := s.rA0 rA + s.r rB

/-- ROTL32(v, n). -/
def rotl32 (v : Word) (n : BitVec 5) : Word := v.rotateLeft n.toNat

/-- Ones in bits `n` to 31. -/
def onesFrom (n : Nat) : Word := BitVec.allOnes 32 >>> n

/-- MASK(mb, me): ones in bits mb to me, wrapping when mb > me (00_scope.md R10, 42_rotate_shift.md R320). -/
def mask (mb me : BitVec 5) : Word :=
  let low := ~~~(onesFrom (me.toNat + 1))
  if mb.toNat ≤ me.toNat then onesFrom mb.toNat &&& low else onesFrom mb.toNat ||| low

end Sys2Proof.Machine
end

