-- ==== Sys2Proof/WellFormed.lean ====
section
/-! DEFINITION. Which instructions are valid forms. Only the forms that the spec marks `refuse` are ill-formed
(30_encoding.md R216); the forms the manual calls invalid but whose RCPU behaviour is stated (update forms with
rA = 0 or rA = rD, `lmw` and `lswi` with rA in range, compares with L = 1) are well-formed and run. -/

namespace Sys2Proof

/-- BO has no `z` bit set (30_encoding.md R198, 48_branch_cr_system_trap.md R541): 0000y, 0001y, 0010y, 0100y, 0101y,
0110y, 1000y, 1001y, 10100. -/
def validBO (bo : BitVec 5) : Bool :=
  if bo.getLsbD 4 then
    if bo.getLsbD 2 then bo = 20#5 else !bo.getLsbD 3
  else
    if bo.getLsbD 2 then !bo.getLsbD 1 else true

/-- BO of `bcctr`: valid, and BO[2] = 1 (48_branch_cr_system_trap.md R545). -/
def validBOctr (bo : BitVec 5) : Bool := validBO bo && bo.getLsbD 2

/-- The valid forms (30_encoding.md R216): BO of the conditional branches, and `lswx` with rD different from rB. -/
def Instr.wellFormed : Instr → Bool
  | .bc bo _ _ _ _ => validBO bo
  | .bclr bo _ _ => validBO bo
  | .bcctr bo _ _ => validBOctr bo
  | .lswx rD _ rB => rD != rB
  | _ => true

end Sys2Proof
end

