-- ==== Sys2Proof/Machine/Branch.lean ====
section
/-! DEFINITION. Branch, condition register, system linkage and trap instructions (48_branch_cr_system_trap.md R540 to R570). -/

namespace Sys2Proof.Machine

open Sys2Proof

/-- CTR after the decrement of `bc` and `bclr`: CTR - 1 when BO[2] = 0 (R541). -/
def ctrAfter (bo : BitVec 5) (ctr : Word) : Word := if bo.getLsbD 2 then ctr else ctr - 1

/-- `ctr_ok` on the decremented CTR (R541). -/
def ctrOk (bo : BitVec 5) (ctr : Word) : Bool := bo.getLsbD 2 || (ctr != 0) != bo.getLsbD 1

/-- `cond_ok` (R541). -/
def condOk (bo bi : BitVec 5) (cr : Word) : Bool := bo.getLsbD 4 || bit cr bi.toNat == bo.getLsbD 3

/-- End of a branch: LR <- CIA + 4 when LK = 1, and NIA (R540). -/
def branchTo (taken : Bool) (target : Word) (lk : Bool) (s : State) : Result :=
  let t := if lk then { s with lr := s.pc + 4 } else s
  .next { t with pc := if taken then target else s.pc + 4 }

/-- What the spec does not state in debug mode: a branch that is relative, or links, or is taken
(62_debug_mode_and_port.md R752). -/
def State.unstatedBranch (s : State) (relative lk taken : Bool) : Bool := s.inDebug && (relative || lk || taken)

/-- Branch (R542). -/
def execB (li : BitVec 24) (aa lk : Bool) (s : State) : Result :=
  let offset := (li ++ 0#2 : BitVec 26).signExtend 32
  if s.inDebug then .refused .branchInDebugMode
  else branchTo true (if aa then offset else s.pc + offset) lk s

/-- Branch conditional (R543). -/
def execBc (bo bi : BitVec 5) (bd : BitVec 14) (aa lk : Bool) (s : State) : Result :=
  let offset := (bd ++ 0#2 : BitVec 16).signExtend 32
  let ctr := ctrAfter bo s.ctr
  let taken := ctrOk bo ctr && condOk bo bi s.cr
  if !validBO bo then .refused .invalidBranchOptions
  else if s.unstatedBranch (!aa) lk taken then .refused .branchInDebugMode
  else branchTo taken (if aa then offset else s.pc + offset) lk { s with ctr := ctr }

/-- Branch conditional to link register: the target is the old LR (R544). -/
def execBclr (bo bi : BitVec 5) (lk : Bool) (s : State) : Result :=
  let ctr := ctrAfter bo s.ctr
  let taken := ctrOk bo ctr && condOk bo bi s.cr
  if !validBO bo then .refused .invalidBranchOptions
  else if s.unstatedBranch false lk taken then .refused .branchInDebugMode
  else branchTo taken (s.lr &&& 0xFFFFFFFC#32) lk { s with ctr := ctr }

/-- Branch conditional to count register (R545). -/
def execBcctr (bo bi : BitVec 5) (lk : Bool) (s : State) : Result :=
  if !bo.getLsbD 2 then .refused .invalidCountBranch
  else if !validBO bo then .refused .invalidBranchOptions
  else if s.unstatedBranch false lk (condOk bo bi s.cr) then .refused .branchInDebugMode
  else branchTo (condOk bo bi s.cr) (s.ctr &&& 0xFFFFFFFC#32) lk s

/-- A CR logical instruction: CR[crbD] <- f(CR[crbA], CR[crbB]) (R547). -/
def crLogical (f : Bool → Bool → Bool) (crbD crbA crbB : BitVec 5) (s : State) : Result :=
  nextInstr { s with cr := setBit s.cr crbD.toNat (f (bit s.cr crbA.toNat) (bit s.cr crbB.toNat)) }

/-- Condition register AND (R548). -/
def execCrand (crbD crbA crbB : BitVec 5) (s : State) : Result := crLogical (fun a b => a && b) crbD crbA crbB s

/-- Condition register OR (R549). -/
def execCror (crbD crbA crbB : BitVec 5) (s : State) : Result := crLogical (fun a b => a || b) crbD crbA crbB s

/-- Condition register XOR (R550). -/
def execCrxor (crbD crbA crbB : BitVec 5) (s : State) : Result := crLogical (fun a b => a != b) crbD crbA crbB s

/-- Condition register NAND (R551). -/
def execCrnand (crbD crbA crbB : BitVec 5) (s : State) : Result := crLogical (fun a b => !(a && b)) crbD crbA crbB s

/-- Condition register NOR (R552). -/
def execCrnor (crbD crbA crbB : BitVec 5) (s : State) : Result := crLogical (fun a b => !(a || b)) crbD crbA crbB s

/-- Condition register equivalent (R553). -/
def execCreqv (crbD crbA crbB : BitVec 5) (s : State) : Result := crLogical (fun a b => a == b) crbD crbA crbB s

/-- Condition register AND with complement (R554). -/
def execCrandc (crbD crbA crbB : BitVec 5) (s : State) : Result := crLogical (fun a b => a && !b) crbD crbA crbB s

/-- Condition register OR with complement (R555). -/
def execCrorc (crbD crbA crbB : BitVec 5) (s : State) : Result := crLogical (fun a b => a || !b) crbD crbA crbB s

/-- Move condition register field (R556). -/
def execMcrf (crfD crfS : BitVec 3) (s : State) : Result := nextInstr (s.setCr crfD (crField s.cr crfS))

/-- System call: taken after, SRR0 = CIA + 4, SRR1[0:15] a free value (R560; 60_exceptions.md R654, R689). -/
def execSc (s : State) : Result :=
  let d := s.draw
  .next ((if s.inDebug then s else d.2).take .systemCall (s.pc + 4) (d.1.setWidth 16))

/-- Return from interrupt (R562). -/
def execRfi (s : State) : Result := supervisorOnly s fun s => .next s.returnFromException

/-- TrapCond(TO, a, b) (R566). -/
def trapCond (trapOn : BitVec 5) (a b : Word) : Bool :=
  (trapOn.getLsbD 4 && a.slt b) || (trapOn.getLsbD 3 && b.slt a) || (trapOn.getLsbD 2 && a == b) ||
  (trapOn.getLsbD 1 && a.ult b) || (trapOn.getLsbD 0 && b.ult a)

/-- Trap word (R567). -/
def execTw (trapOn : BitVec 5) (rA rB : Reg) (s : State) : Result :=
  if trapCond trapOn (s.r rA) (s.r rB) then trapException s else nextInstr s

/-- Trap word immediate (R568). -/
def execTwi (trapOn : BitVec 5) (rA : Reg) (simm : BitVec 16) (s : State) : Result :=
  if trapCond trapOn (s.r rA) (sext16 simm) then trapException s else nextInstr s

end Sys2Proof.Machine
end

