-- ==== Sys2Proof/Machine/Flags.lean ====
section
/-! DEFINITION. Flag computations of the integer instructions: XER[CA], XER[OV], XER[SO] and CR0
(00_scope.md R11; 10_state.md R35, R37; 40_integer_arith.md R240). -/

namespace Sys2Proof.Machine

open Sys2Proof

/-- The three bits LT, GT, EQ of a signed comparison (00_scope.md R11, 41_integer_compare_logical.md R280). -/
def signedOrder (a b : Word) : BitVec 3 := if a.slt b then 4#3 else if b.slt a then 2#3 else 1#3

/-- The three bits of an unsigned comparison (41_integer_compare_logical.md R282). -/
def unsignedOrder (a b : Word) : BitVec 3 := if a.ult b then 4#3 else if b.ult a then 2#3 else 1#3

/-- Three result bits and XER[SO] as a CR field. -/
def withSO (c : BitVec 3) (xer : Word) : BitVec 4 := (c ++ BitVec.ofBool (xerSO xer) : BitVec 4)

/-- SetCR0(v), with XER[SO] as it is at the completion of the instruction (00_scope.md R11). -/
def State.setCR0 (s : State) (v : Word) : State := s.setCr 0 (withSO (signedOrder v 0) s.xer)

/-- SetCR0(v) when Rc = 1. -/
def State.recordIf (s : State) (rc : Bool) (v : Word) : State := if rc then s.setCR0 v else s

/-- XER[CA] <- c. -/
def State.setCA (s : State) (c : Bool) : State := { s with xer := setBit s.xer 2 c }

/-- XER[OV] <- ov and XER[SO] <- XER[SO] | ov (R240). -/
def State.setOV (s : State) (ov : Bool) : State :=
  { s with xer := setBit (setBit s.xer 1 ov) 0 (xerSO s.xer || ov) }

/-- The update of OV and SO when OE = 1 (R240). -/
def State.setOVIf (s : State) (oe ov : Bool) : State := if oe then s.setOV ov else s

/-- A sum with its carry out of bit 0 and its overflow. -/
structure Sum where
  sum : Word
  ca : Bool
  ov : Bool
deriving DecidableEq, Repr

/-- Add32(a, b, cin) (R240): the carry out of bit 0, and overflow when the addends agree in sign and the sum differs. -/
def add32 (a b : Word) (cin : Bool) : Sum :=
  let t := a.toNat + b.toNat + cin.toNat
  let sum := BitVec.ofNat 32 t
  { sum := sum, ca := decide (2 ^ 32 ≤ t), ov := a.msb == b.msb && sum.msb != a.msb }

/-- The signed product as an integer. -/
def signedProduct (a b : Word) : Int := a.toInt * b.toInt

/-- The product is no 32-bit signed integer (R263). -/
def productOverflows (a b : Word) : Bool :=
  decide (signedProduct a b < -2 ^ 31) || decide (2 ^ 31 - 1 < signedProduct a b)

end Sys2Proof.Machine
end

