-- ==== Sys2Proof/Machine/CompareLogical.lean ====
section
/-! DEFINITION. Integer compare and logical instructions (41_integer_compare_logical.md R280 to R303). -/

namespace Sys2Proof.Machine

open Sys2Proof

/-- A compare writes one CR field: the order and XER[SO] (R280, R285). The L bit has no effect (R284). -/
def compareWith (crfD : BitVec 3) (order : BitVec 3) (s : State) : Result :=
  nextInstr (s.setCr crfD (withSO order s.xer))

/-- A logical instruction writes rA, and CR0 when it records (R292 to R303). -/
def logical (rA : Reg) (v : Word) (rc : Bool) (s : State) : Result :=
  nextInstr ((s.setR rA v).recordIf rc v)

/-- The number of zero bits before the first one, looking at the `n` low bits of a word from the left (R302). -/
def leadingZeros (w : Word) : Nat → Nat
  | 0 => 0
  | n + 1 => if w.getLsbD n then 0 else leadingZeros w n + 1

/-- Signed compare with sext_16(SIMM) (R281). -/
def execCmpi (crfD : BitVec 3) (_l : Bool) (rA : Reg) (simm : BitVec 16) (s : State) : Result :=
  compareWith crfD (signedOrder (s.r rA) (sext16 simm)) s

/-- Signed compare (R280). -/
def execCmp (crfD : BitVec 3) (_l : Bool) (rA rB : Reg) (s : State) : Result :=
  compareWith crfD (signedOrder (s.r rA) (s.r rB)) s

/-- Unsigned compare with zext_16(UIMM) (R283). -/
def execCmpli (crfD : BitVec 3) (_l : Bool) (rA : Reg) (uimm : BitVec 16) (s : State) : Result :=
  compareWith crfD (unsignedOrder (s.r rA) (zext16 uimm)) s

/-- Unsigned compare (R282). -/
def execCmpl (crfD : BitVec 3) (_l : Bool) (rA rB : Reg) (s : State) : Result :=
  compareWith crfD (unsignedOrder (s.r rA) (s.r rB)) s

/-- rA = rS & zext_16(UIMM), with CR0 (R286). -/
def execAndiRc (rA rS : Reg) (uimm : BitVec 16) (s : State) : Result :=
  logical rA (s.r rS &&& zext16 uimm) true s

/-- rA = rS & (UIMM || 0x0000), with CR0 (R287). -/
def execAndisRc (rA rS : Reg) (uimm : BitVec 16) (s : State) : Result :=
  logical rA (s.r rS &&& high16 uimm) true s

/-- rA = rS | zext_16(UIMM) (R288). -/
def execOri (rA rS : Reg) (uimm : BitVec 16) (s : State) : Result :=
  logical rA (s.r rS ||| zext16 uimm) false s

/-- rA = rS | (UIMM || 0x0000) (R289). -/
def execOris (rA rS : Reg) (uimm : BitVec 16) (s : State) : Result :=
  logical rA (s.r rS ||| high16 uimm) false s

/-- rA = rS ^ zext_16(UIMM) (R290). -/
def execXori (rA rS : Reg) (uimm : BitVec 16) (s : State) : Result :=
  logical rA (s.r rS ^^^ zext16 uimm) false s

/-- rA = rS ^ (UIMM || 0x0000) (R291). -/
def execXoris (rA rS : Reg) (uimm : BitVec 16) (s : State) : Result :=
  logical rA (s.r rS ^^^ high16 uimm) false s

/-- rA = rS & rB (R292). -/
def execAnd (rA rS rB : Reg) (rc : Bool) (s : State) : Result :=
  logical rA (s.r rS &&& s.r rB) rc s

/-- rA = rS | rB (R293). -/
def execOr (rA rS rB : Reg) (rc : Bool) (s : State) : Result :=
  logical rA (s.r rS ||| s.r rB) rc s

/-- rA = rS ^ rB (R294). -/
def execXor (rA rS rB : Reg) (rc : Bool) (s : State) : Result :=
  logical rA (s.r rS ^^^ s.r rB) rc s

/-- The complement of rS & rB, into rA (R295). -/
def execNand (rA rS rB : Reg) (rc : Bool) (s : State) : Result :=
  logical rA (~~~(s.r rS &&& s.r rB)) rc s

/-- The complement of rS | rB, into rA (R296). -/
def execNor (rA rS rB : Reg) (rc : Bool) (s : State) : Result :=
  logical rA (~~~(s.r rS ||| s.r rB)) rc s

/-- The complement of rS ^ rB, into rA (R297). -/
def execEqv (rA rS rB : Reg) (rc : Bool) (s : State) : Result :=
  logical rA (~~~(s.r rS ^^^ s.r rB)) rc s

/-- rA = rS & the complement of rB (R298). -/
def execAndc (rA rS rB : Reg) (rc : Bool) (s : State) : Result :=
  logical rA (s.r rS &&& ~~~(s.r rB)) rc s

/-- rA = rS | the complement of rB (R299). -/
def execOrc (rA rS rB : Reg) (rc : Bool) (s : State) : Result :=
  logical rA (s.r rS ||| ~~~(s.r rB)) rc s

/-- Sign-extend the low byte of rS, into rA (R300). -/
def execExtsb (rA rS : Reg) (rc : Bool) (s : State) : Result :=
  logical rA (((s.r rS).setWidth 8).signExtend 32) rc s

/-- Sign-extend the low half word of rS, into rA (R301). -/
def execExtsh (rA rS : Reg) (rc : Bool) (s : State) : Result :=
  logical rA (((s.r rS).setWidth 16).signExtend 32) rc s

/-- Count leading zeros, into rA (R302). -/
def execCntlzw (rA rS : Reg) (rc : Bool) (s : State) : Result :=
  logical rA (BitVec.ofNat 32 (leadingZeros (s.r rS) 32)) rc s

end Sys2Proof.Machine
end

