-- ==== Sys2Proof/Machine/FpCore.lean ====
section
/-! DEFINITION. Floating-point values, exact arithmetic, rounding, and the FPSCR
(10_state.md R40 to R42; 43_fp_arith.md R340 to R354). -/

namespace Sys2Proof.Machine

open Sys2Proof

/-! Patterns of the double format (R340, R341). -/

/-- The biased exponent, bits 1 to 11. -/
def fpExp (d : Dword) : Nat := (d.extractLsb' 52 11).toNat
/-- The fraction, bits 12 to 63. -/
def fpFrac (d : Dword) : Nat := (d.extractLsb' 0 52).toNat
/-- The sign, bit 0. -/
def fpSign (d : Dword) : Bool := d.msb
def isNaN (d : Dword) : Bool := fpExp d == 2047 && fpFrac d != 0
/-- A NaN with bit 12 clear. -/
def isSNaN (d : Dword) : Bool := isNaN d && !dbit d 12
def isQNaN (d : Dword) : Bool := isNaN d && dbit d 12
def isInf (d : Dword) : Bool := fpExp d == 2047 && fpFrac d == 0
def isZero (d : Dword) : Bool := fpExp d == 0 && fpFrac d == 0
/-- Range B: a denormalized double (R353). -/
def isDenormal (d : Dword) : Bool := fpExp d == 0 && fpFrac d != 0

/-- The generated QNaN (R342). -/
def qnan0 : Dword := 0x7FF8000000000000#64
/-- A NaN made quiet (R342). -/
def quiet (d : Dword) : Dword := d ||| 0x0008000000000000#64
/-- A value with its sign inverted. -/
def negate (d : Dword) : Dword := d ^^^ 0x8000000000000000#64
/-- `negate` where `neg` holds. -/
def negateIf (neg : Bool) (d : Dword) : Dword := if neg then negate d else d
/-- A signed zero. -/
def zeroOf (neg : Bool) : Dword := if neg then 0x8000000000000000#64 else 0
/-- A signed infinity. -/
def infOf (neg : Bool) : Dword := if neg then 0xFFF0000000000000#64 else 0x7FF0000000000000#64

/-- FPRF of a result (10_state.md R42). -/
def fprfOf (d : Dword) : BitVec 5 :=
  if isNaN d then 0b10001#5
  else if isInf d then (if fpSign d then 0b01001#5 else 0b00101#5)
  else if isZero d then (if fpSign d then 0b10010#5 else 0b00010#5)
  else if isDenormal d then (if fpSign d then 0b11000#5 else 0b10100#5)
  else (if fpSign d then 0b01000#5 else 0b00100#5)

/-- The two precisions (R340, R345). -/
inductive Precision where
  | single
  | double
deriving DecidableEq, Repr

/-- The width of the significand. -/
def Precision.width : Precision → Nat
  | .single => 24
  | .double => 53
def Precision.minExp : Precision → Int
  | .single => -126
  | .double => -1022
def Precision.maxExp : Precision → Int
  | .single => 127
  | .double => 1023
/-- The adjustment of an enabled overflow or underflow (R349, R350). -/
def Precision.adjust : Precision → Int
  | .single => 192
  | .double => 1536
/-- Max(prec) in double format (R349). -/
def Precision.maxPattern : Precision → Dword
  | .single => 0x47EFFFFFE0000000#64
  | .double => 0x7FEFFFFFFFFFFFFF#64

/-- SingleOK(p) (R345): the low 29 bits are 0 and the value is a zero, an infinity, a NaN, or in the single range. -/
def singleOK (d : Dword) : Bool :=
  d.extractLsb' 0 29 == 0#29 &&
  (isNaN d || isInf d || isZero d || (decide (874 ≤ fpExp d) && decide (fpExp d ≤ 1150)))

/-! Exact values (R341, R343, R344). -/

/-- A value that is no NaN: an infinity, or a signed mantissa times a power of two (a zero has mantissa 0). -/
inductive Num where
  | inf (neg : Bool)
  | fin (neg : Bool) (mant : Nat) (exp : Int)
deriving DecidableEq, Repr

/-- val(p) of a pattern that is no NaN (R341). -/
def numOf (d : Dword) : Num :=
  if fpExp d = 2047 then .inf (fpSign d)
  else if fpExp d = 0 then .fin (fpSign d) (fpFrac d) (-1074)
  else .fin (fpSign d) (2 ^ 52 + fpFrac d) ((fpExp d : Int) - 1075)

/-- The value with its sign inverted. -/
def Num.neg : Num → Num
  | .inf n => .inf (!n)
  | .fin n m e => .fin (!n) m e

/-- The exact product (R343). -/
def Num.mul : Num → Num → Num
  | .fin n m e, .fin n' m' e' => .fin (n != n') (m * m') (e + e')
  | .inf n, .fin n' _ _ => .inf (n != n')
  | .fin n _ _, .inf n' => .inf (n != n')
  | .inf n, .inf n' => .inf (n != n')

/-- A signed integer mantissa. -/
def signedMant (neg : Bool) (m : Nat) : Int := if neg then -(m : Int) else m

/-- The exact sum (R343): an exact zero sum of opposite signs is +0, or -0 when rounding toward -infinity. -/
def Num.add (rn : BitVec 2) : Num → Num → Num
  | .inf n, _ => .inf n
  | .fin _ _ _, .inf n => .inf n
  | .fin n m e, .fin n' m' e' =>
    let low := min e e'
    let t := signedMant n (m <<< (e - low).toNat) + signedMant n' (m' <<< (e' - low).toNat)
    if t = 0 then .fin (if n = n' then n else decide (rn = 3#2)) 0 0
    else .fin (decide (t < 0)) t.natAbs low

/-- The quotient (R343): the mantissa has more bits than any precision needs, and its last bit is 1 exactly when the division
leaves a remainder, so that rounding it is rounding the exact quotient. -/
def Num.div : Num → Num → Num
  | .inf n, .fin n' _ _ => .inf (n != n')
  | .inf n, .inf n' => .inf (n != n')
  | .fin n _ _, .inf n' => .fin (n != n') 0 0
  | .fin n m e, .fin n' m' e' =>
    if m' = 0 then .inf (n != n')
    else if m = 0 then .fin (n != n') 0 0
    else
      let a := m <<< 120
      .fin (n != n') (2 * (a / m') + (if a % m' = 0 then 0 else 1)) (e - e' - 121)

/-- A rounded magnitude: `sig` of exactly the precision's width, times 2^(exp - width + 1). -/
structure Rounded where
  sig : Nat
  exp : Int
  fr : Bool
  fi : Bool
deriving DecidableEq, Repr

/-- floor(log2 |Z|) of a non-zero value. -/
def exponentOf (m : Nat) (e : Int) : Int := e + Nat.log2 m

/-- The increment of R344: `odd` is the last bit kept, `rest` out of `2 * half` what is dropped. -/
def roundUp (rn : BitVec 2) (neg odd : Bool) (rest half : Nat) : Bool :=
  if rn = 0#2 then decide (half < rest) || (rest == half && rest != 0 && odd)
  else if rn = 1#2 then false
  else if rn = 2#2 then rest != 0 && !neg
  else rest != 0 && neg

/-- Round(prec, RN, Z) with an unbounded exponent (R344), for m ≠ 0. -/
def roundTo (p : Precision) (rn : BitVec 2) (neg : Bool) (m : Nat) (e : Int) : Rounded :=
  let len := Nat.log2 m + 1
  let top := exponentOf m e
  if len ≤ p.width then { sig := m <<< (p.width - len), exp := top, fr := false, fi := false }
  else
    let drop := len - p.width
    let kept := m >>> drop
    let rest := m % 2 ^ drop
    let inc := roundUp rn neg (kept % 2 == 1) rest (2 ^ (drop - 1))
    let sig := if inc then kept + 1 else kept
    if sig = 2 ^ p.width then { sig := 2 ^ (p.width - 1), exp := top + 1, fr := inc, fi := rest != 0 }
    else { sig := sig, exp := top, fr := inc, fi := rest != 0 }

/-- The double pattern of a rounded magnitude with the exponent `exp + adjust`, which lies in the range of normalized doubles. -/
def patternOf (p : Precision) (neg : Bool) (r : Rounded) (adjust : Int) : Dword :=
  (BitVec.ofBool neg ++ BitVec.ofInt 11 (r.exp + adjust + 1023) ++ BitVec.ofNat 52 (r.sig <<< (53 - p.width)) : BitVec 64)

/-! The FPSCR (10_state.md R40, R41). -/

def fpVE (f : Word) : Bool := bit f 24
def fpOE (f : Word) : Bool := bit f 25
def fpUE (f : Word) : Bool := bit f 26
def fpZE (f : Word) : Bool := bit f 27
def fpXE (f : Word) : Bool := bit f 28
def fpNI (f : Word) : Bool := bit f 29
def fpRN (f : Word) : BitVec 2 := bits f 30 2

/-- Exception bits as masks. -/
def fpOX : Word := 0x10000000#32
def fpUX : Word := 0x08000000#32
def fpZX : Word := 0x04000000#32
def fpXX : Word := 0x02000000#32
def fpVXSNAN : Word := 0x01000000#32
def fpVXISI : Word := 0x00800000#32
def fpVXIDI : Word := 0x00400000#32
def fpVXZDZ : Word := 0x00200000#32
def fpVXIMZ : Word := 0x00100000#32
def fpVXVC : Word := 0x00080000#32
def fpVXCVI : Word := 0x00000100#32
/-- All invalid-operation bits: 7 to 12 and 21 to 23. -/
def fpVXMask : Word := 0x01F80700#32
/-- All exception bits: 3 to 12 and 21 to 23. -/
def fpExceptionMask : Word := 0x1FF80700#32

/-- A mask where a condition holds. -/
def maskIf (c : Bool) (m : Word) : Word := if c then m else 0

/-- FEX and VX recomputed from the other bits, and the reserved bit 0 (10_state.md R41). -/
def fpSummary (f : Word) : Word :=
  let vx := (f &&& fpVXMask) != 0
  let fex := (vx && fpVE f) || (bit f 3 && fpOE f) || (bit f 4 && fpUE f) || (bit f 5 && fpZE f) || (bit f 6 && fpXE f)
  setBit (setBit (f &&& fpscrMask) 1 fex) 2 vx

/-- Set exception bits; FX is set if one of them was 0 (R355). FEX and VX are recomputed. -/
def fpSignal (f set : Word) : Word :=
  let g := f ||| set
  fpSummary (if (set &&& ~~~f) = 0 then g else setBit g 0 true)

/-- FR and FI. -/
def fpSetFRFI (f : Word) (fr fi : Bool) : Word := setBit (setBit f 13 fr) 14 fi
/-- FPRF, bits 15 to 19. -/
def fpSetFPRF (f : Word) (v : BitVec 5) : Word := insertBits f 0x0001F000#32 (v.setWidth 32 <<< 12)
/-- FPCC, bits 16 to 19. -/
def fpSetFPCC (f : Word) (v : BitVec 4) : Word := insertBits f 0x0000F000#32 (v.setWidth 32 <<< 12)

/-- SetCR1() when Rc = 1: FX, FEX, VX, OX into CR field 1 (00_scope.md R12). -/
def State.recordFp (s : State) (rc : Bool) : State := if rc then s.setCr 1 (bits s.fpscr 0 4) else s

/-- FPECR[SIE] (10_state.md R57). -/
def State.sie (s : State) : Bool := bit s.fpecr 0

/-- `Trap?()` raises: precise mode and no SIE mode (R346). -/
def State.fpTraps (s : State) : Bool := msrFE s.msr && !s.sie

/-- The status bits of FPECR, DNC, DNB, DNA, TR, as an instruction in SIE mode writes them (R353, R354). -/
def State.setCauses (s : State) (dnc dnb dna tr : Bool) : State :=
  if s.sie then
    let v : BitVec 4 := BitVec.ofBool dnc ++ BitVec.ofBool dnb ++ BitVec.ofBool dna ++ BitVec.ofBool tr
    { s with fpecr := insertBits s.fpecr 0xF#32 (v.setWidth 32) }
  else s

/-- The test after an arithmetic, rounding or conversion instruction in SIE mode (60_exceptions.md R684), then CIA + 4. -/
def finishFp (s : State) : Result :=
  let t := s.advance
  .next (if s.sie then t.fpEnabledTest s.pc 0x0010 else t)

/-- What a floating-point operation delivers. `value` and `fprf` are none where the register and the field are unchanged; `fr`
and `fi` are none where the spec leaves them open. -/
structure FpResult where
  value : Option Dword
  fprf : Option (BitVec 5)
  set : Word
  fr : Option Bool
  fi : Option Bool
  tiny : Bool
deriving DecidableEq, Repr

/-- The answer of the decision steps: the floating-point assist exception, or a result. -/
inductive FpOutcome where
  | assist
  | result (r : FpResult)
deriving DecidableEq, Repr

/-- `Trap?()` for an enabled condition, else the result (R346). -/
def trapIf (c : Bool) (r : FpResult) : FpOutcome := if c then .assist else .result r

/-- A result that is exact and signals nothing. -/
def exactResult (v : Dword) : FpResult :=
  { value := some v, fprf := some (fprfOf v), set := 0, fr := some false, fi := some false, tiny := false }

/-- A result that signals `set` with FR and FI cleared; with the enable bit on, register and FPRF are unchanged (R347, R348). -/
def signalled (set : Word) (enabled : Bool) (v : Dword) : FpResult :=
  { value := if enabled then none else some v
    fprf := if enabled then none else some (fprfOf v)
    set := set, fr := some false, fi := some false, tiny := false }

/-- A rounded result with an adjusted exponent and its exception bits. -/
def roundedResult (p : Precision) (neg : Bool) (r : Rounded) (adjust : Int) (set : Word) (tiny : Bool) : FpResult :=
  let v := patternOf p neg r adjust
  { value := some v, fprf := some (fprfOf v), set := set, fr := some r.fr, fi := some r.fi, tiny := tiny }

/-- Overflow (R349): `traps` is the condition of `Trap?()`, `sign` the sign of Z, `neg` the final negation. -/
def overflowOutcome (f : Word) (traps : Bool) (p : Precision) (sign neg : Bool) (r : Rounded) : FpOutcome :=
  if fpOE f then trapIf traps (roundedResult p (sign != neg) r (-p.adjust) (fpOX ||| maskIf r.fi fpXX) false)
  else
    let toInf :=
      if fpRN f = 0#2 then true else if fpRN f = 1#2 then false else if fpRN f = 2#2 then !sign else sign
    let v := if toInf then infOf (sign != neg) else negateIf (sign != neg) p.maxPattern
    trapIf (fpXE f && traps)
      { value := some v, fprf := some (fprfOf v), set := fpOX ||| fpXX, fr := none, fi := some true, tiny := false }

/-- A tiny result (R350, R352). -/
def tinyOutcome (f : Word) (traps sie : Bool) (p : Precision) (sign neg : Bool) (r : Rounded) : FpOutcome :=
  if fpUE f then trapIf traps (roundedResult p (sign != neg) r p.adjust (fpUX ||| maskIf r.fi fpXX) true)
  else if fpNI f then
    let v := zeroOf (sign != neg)
    .result { value := some v, fprf := some (fprfOf v), set := fpUX, fr := none, fi := none, tiny := true }
  else if !sie then .assist
  else .result (roundedResult p (sign != neg) r p.adjust 0 true)

/-- Steps 7 and 8 of R346: deliver an exact value that is no NaN, rounded to the precision and then negated where `neg`. -/
def deliver (f : Word) (traps sie : Bool) (p : Precision) (neg : Bool) : Num → FpOutcome
  | .inf sign => .result (exactResult (infOf (sign != neg)))
  | .fin sign m e =>
    if m = 0 then .result (exactResult (zeroOf (sign != neg)))
    else
      let r := roundTo p (fpRN f) sign m e
      if exponentOf m e < p.minExp then tinyOutcome f traps sie p sign neg r
      else if p.maxExp < r.exp then overflowOutcome f traps p sign neg r
      else trapIf (r.fi && fpXE f && traps) (roundedResult p (sign != neg) r 0 (maskIf r.fi fpXX) false)

/-- A bit that is given, or free. -/
def orFree (b : Option Bool) (free : Bool) : Bool := b.getD free

/-- Step 9 of R346: write the register, the FPSCR, FPECR in SIE mode, and CR1. FR and FI that the spec leaves open are free
values. -/
def State.deliverResult (s : State) (frD : Reg) (rc : Bool) (r : FpResult) : State :=
  let d := if r.fr.isNone || r.fi.isNone then s.draw else (0, s)
  let f := fpSetFRFI s.fpscr (orFree r.fr (dbit d.1 0)) (orFree r.fi (dbit d.1 1))
  let f := match r.fprf with
    | some c => fpSetFPRF f c
    | none => f
  let t := match r.value with
    | some v => d.2.setF frD v
    | none => d.2
  (({ t with fpscr := fpSignal f r.set }).setCauses false false false r.tiny).recordFp rc

/-- The end of an arithmetic, rounding or conversion instruction: the assist exception of class Before, or the result (R354;
60_exceptions.md R692). -/
def finishOutcome (o : FpOutcome) (frD : Reg) (rc : Bool) (s : State) : Result :=
  match o with
  | .assist => raise .fpAssist s
  | .result r => finishFp (s.deliverResult frD rc r)

/-- DenormOperand() (R353). -/
def denormOperand (dnc dnb dna : Bool) (s : State) : Result :=
  if s.sie then finishFp (s.setCauses dnc dnb dna false) else raise .fpAssist s

end Sys2Proof.Machine
end

