-- ==== Sys2Proof/Machine/FpConvert.lean ====
section
/-! DEFINITION. Floating-point rounding, conversion, compare and FPSCR instructions
(44_fp_convert_compare_fpscr.md R390 to R419). -/

namespace Sys2Proof.Machine

open Sys2Proof

/-- The low 29 bits cleared. -/
def clearLow29 (d : Dword) : Dword := d &&& 0xFFFFFFFFE0000000#64

/-- Steps 3 to 6 of `frsp` (R391). -/
def roundSingleOutcome (f : Word) (traps sie : Bool) (b : Dword) : FpOutcome :=
  if isSNaN b then trapIf (fpVE f && traps) (signalled fpVXSNAN (fpVE f) (clearLow29 (quiet b)))
  else if isNaN b then .result (exactResult (clearLow29 b))
  else deliver f traps sie .single false (numOf b)

/-- Floating round to single precision (R391). -/
def execFrsp (frD frB : Reg) (rc : Bool) (s : State) : Result :=
  fpAvailable s fun s =>
    if isDenormal (s.f frB) then denormOperand false true false s
    else finishOutcome (roundSingleOutcome s.fpscr s.fpTraps s.sie (s.f frB)) frD rc s

/-- What a conversion to a 32-bit integer finds: the invalid-operation bits, the word delivered, and the rounding. -/
structure Converted where
  invalid : Word
  word : Word
  fr : Bool
  fi : Bool
deriving DecidableEq, Repr

/-- The word of an operand beyond the range, by its sign. -/
def saturated (neg : Bool) : Word := if neg then 0x80000000#32 else 0x7FFFFFFF#32

/-- Step 2 of ConvertToIntWord (R394). -/
def convertWord (b : Dword) (mode : BitVec 2) : Converted :=
  if isSNaN b then { invalid := fpVXSNAN ||| fpVXCVI, word := 0x80000000#32, fr := false, fi := false }
  else if isNaN b then { invalid := fpVXCVI, word := 0x80000000#32, fr := false, fi := false }
  else if 1086 < fpExp b then { invalid := fpVXCVI, word := saturated (fpSign b), fr := false, fi := false }
  else
    let neg := fpSign b
    let m := if fpExp b = 0 then fpFrac b else 2 ^ 52 + fpFrac b
    let e : Int := if fpExp b = 0 then -1074 else (fpExp b : Int) - 1075
    let drop := (-e).toNat
    let n := (m <<< e.toNat) >>> drop
    let rest := m % 2 ^ drop
    let inc := roundUp mode neg (n % 2 == 1) (2 * rest) (2 ^ drop)
    let r := signedMant neg (if inc then n + 1 else n)
    if r < -2 ^ 31 ∨ 2 ^ 31 - 1 < r then { invalid := fpVXCVI, word := saturated neg, fr := inc, fi := rest != 0 }
    else { invalid := 0, word := BitVec.ofInt 32 r, fr := inc, fi := rest != 0 }

/-- Steps 3 of ConvertToIntWord (R394): frD[0:31] and FPRF are free values where frD is written. -/
def convertOutcome (f : Word) (traps : Bool) (d : Dword) (c : Converted) : FpOutcome :=
  let value : Dword := (d.extractLsb' 32 32 ++ c.word : BitVec 64)
  let xx := maskIf c.fi fpXX
  if c.invalid = 0 then
    trapIf (c.fi && fpXE f && traps)
      { value := some value, fprf := some (d.setWidth 5), set := xx, fr := some c.fr, fi := some c.fi, tiny := false }
  else if fpVE f then
    trapIf traps { value := none, fprf := none, set := c.invalid ||| xx, fr := some false, fi := some false, tiny := false }
  else
    trapIf (c.fi && fpXE f && traps)
      { value := some value, fprf := some (d.setWidth 5), set := c.invalid ||| xx, fr := some false, fi := some false, tiny := false }

/-- ConvertToIntWord (R394); in SIE mode FPECR[DNB] tells of a denormalized operand (10_state.md R57; log 15). -/
def convertToIntWord (mode : BitVec 2) (frD frB : Reg) (rc : Bool) (s : State) : Result :=
  fpAvailable s fun s =>
    let d := s.draw
    match convertOutcome s.fpscr s.fpTraps d.1 (convertWord (s.f frB) mode) with
    | .assist => raise .fpAssist s
    | .result r => finishFp ((d.2.deliverResult frD rc r).setCauses false (isDenormal (s.f frB)) false false)

/-- Convert to integer word (R392). -/
def execFctiw (frD frB : Reg) (rc : Bool) (s : State) : Result :=
  convertToIntWord (fpRN s.fpscr) frD frB rc s

/-- Convert to integer word with round toward zero (R393). -/
def execFctiwz (frD frB : Reg) (rc : Bool) (s : State) : Result :=
  convertToIntWord 1#2 frD frB rc s

/-! Compare. -/

/-- val(A) < val(B), for operands that are no NaN, by an integer that orders the patterns (R395). -/
def fpKey (d : Dword) : Int := signedMant (fpSign d) (d &&& 0x7FFFFFFFFFFFFFFF#64).toNat

/-- The four bits of R395. -/
def fpCompare (a b : Dword) : BitVec 4 :=
  if isNaN a || isNaN b then 0b0001#4
  else if fpKey a < fpKey b then 0b1000#4
  else if fpKey b < fpKey a then 0b0100#4
  else 0b0010#4

/-- End of a compare: FPCC, the CR field, the exception bits (R395), and the cause bits in SIE mode (10_state.md R57; log 15). -/
def comparing (crfD : BitVec 3) (a b : Dword) (set : Word) (s : State) : Result :=
  let c := fpCompare a b
  nextInstr (({ s with fpscr := fpSignal (fpSetFPCC s.fpscr c) set }.setCr crfD c).setCauses
    false (isDenormal b) (isDenormal a) false)

/-- Compare unordered (R396). -/
def execFcmpu (crfD : BitVec 3) (frA frB : Reg) (s : State) : Result :=
  fpAvailable s fun s =>
    let a := s.f frA
    let b := s.f frB
    let snan := isSNaN a || isSNaN b
    if snan && fpVE s.fpscr && s.fpTraps then raise .fpAssist s
    else comparing crfD a b (maskIf snan fpVXSNAN) s

/-- Compare ordered (R397). -/
def execFcmpo (crfD : BitVec 3) (frA frB : Reg) (s : State) : Result :=
  fpAvailable s fun s =>
    let a := s.f frA
    let b := s.f frB
    let snan := isSNaN a || isSNaN b
    let nan := isNaN a || isNaN b
    let set := if snan then fpVXSNAN ||| maskIf (!fpVE s.fpscr) fpVXVC else maskIf nan fpVXVC
    if nan && fpVE s.fpscr && s.fpTraps then raise .fpAssist s
    else comparing crfD a b set s

/-! FPSCR instructions. -/

/-- The cause bits that an instruction without a floating-point operand writes in SIE mode: all 0 (10_state.md R57; log 15). -/
def State.noCauses (s : State) : State := s.setCauses false false false false

/-- End of a move to the FPSCR (R410): FPSCR with its summary bits, CR1, and the program exception with SRR0 = CIA. -/
def movedToFpscr (f : Word) (rc : Bool) (s : State) : Result :=
  .next (({ s with fpscr := fpSummary f }.recordFp rc).noCauses.advance.fpEnabledTest s.pc 0x0010)

/-- Move from FPSCR (R411). -/
def execMffs (frD : Reg) (rc : Bool) (s : State) : Result :=
  fpAvailable s fun s =>
    let d := s.draw
    nextInstr ((d.2.setF frD (d.1.extractLsb' 32 32 ++ s.fpscr : BitVec 64)).recordFp rc).noCauses

/-- The exception bits that `mcrfs` clears: FX, and the exception bits other than FEX and VX, of one field (R412). -/
def mcrfsMask (crfS : BitVec 3) : Word :=
  (fpExceptionMask ||| 0x80000000#32) &&& (0xF0000000#32 >>> (4 * crfS.toNat))

/-- Move to condition register from FPSCR (R412). -/
def execMcrfs (crfD crfS : BitVec 3) (s : State) : Result :=
  fpAvailable s fun s =>
    movedToFpscr (s.fpscr &&& ~~~(mcrfsMask crfS)) false (s.setCr crfD (crField s.fpscr crfS))

/-- The bits that a move to the FPSCR writes: all but FEX, VX and bit 20. -/
def fpWritable : Word := 0x9FFFF7FF#32

/-- The bits of the 4-bit fields that a mask of eight bits selects; mask bit 0 selects bits 0 to 3 (R415). -/
def fieldMask (m : BitVec 8) : Word :=
  let g (k : Nat) : BitVec 4 := if m.getLsbD (7 - k) then 0xF#4 else 0#4
  (g 0 ++ g 1 ++ g 2 ++ g 3 ++ g 4 ++ g 5 ++ g 6 ++ g 7 : BitVec 32)

/-- Move to FPSCR fields (R415). -/
def execMtfsf (fm : BitVec 8) (frB : Reg) (rc : Bool) (s : State) : Result :=
  fpAvailable s fun s =>
    movedToFpscr (insertBits s.fpscr (fieldMask fm &&& fpWritable) ((s.f frB).setWidth 32)) rc s

/-- Move to FPSCR bit 0 (R416). -/
def execMtfsb0 (crbD : BitVec 5) (rc : Bool) (s : State) : Result :=
  fpAvailable s fun s =>
    movedToFpscr (s.fpscr &&& ~~~(bitMask crbD.toNat &&& fpWritable)) rc s

/-- Move to FPSCR bit 1 (R417). -/
def execMtfsb1 (crbD : BitVec 5) (rc : Bool) (s : State) : Result :=
  fpAvailable s fun s =>
    let set := bitMask crbD.toNat &&& fpWritable
    let f := s.fpscr ||| set
    let f := if (set &&& fpExceptionMask &&& ~~~s.fpscr) = 0 then f else setBit f 0 true
    movedToFpscr f rc s

/-- Move to FPSCR field immediate (R418). -/
def execMtfsfi (crfD : BitVec 3) (imm : BitVec 4) (rc : Bool) (s : State) : Result :=
  fpAvailable s fun s =>
    let sel := 0xF0000000#32 >>> (4 * crfD.toNat)
    movedToFpscr (insertBits s.fpscr (sel &&& fpWritable) (imm.setWidth 32 <<< (28 - 4 * crfD.toNat))) rc s

end Sys2Proof.Machine
end

