-- ==== Sys2Proof/Machine/Spr.lean ====
section
/-! DEFINITION. Special-purpose registers: which exist, who may use them, what a read and a write do
(10_state.md R59; 49_processor_control_sync_cache.md R586 to R592; 62_debug_mode_and_port.md R770, R771). -/

namespace Sys2Proof.Machine

open Sys2Proof

/-- SPR0(n): the register is at the supervisor level (R586). -/
def sprSupervisor (n : BitVec 10) : Bool := n.getLsbD 4

/-- External(n): the register lies outside the processor (R586). -/
def sprExternal (n : BitVec 10) : Bool :=
  (decide (512 ≤ n.toNat) && decide (n.toNat ≤ 639)) || n == 22 || n == 268 || n == 269 || n == 284 || n == 285

/-- The development-support registers CMPA to BAR (R587). -/
def sprDevelopment (n : BitVec 10) : Bool := decide (144 ≤ n.toNat) && decide (n.toNat ≤ 159)

/-- Registers with both directions (R587). -/
def sprReadWrite (n : BitVec 10) : Bool :=
  [1#10, 8, 9, 18, 19, 22, 26, 27, 272, 273, 274, 275, 560, 561, 630, 1022].contains n || sprDevelopment n

/-- Implemented(n, read) (R587). -/
def sprReadable (n : BitVec 10) : Bool := sprReadWrite n || n == 287 || n == 562
/-- Implemented(n, write) (R587). -/
def sprWritable (n : BitVec 10) : Bool := sprReadWrite n || n == 80 || n == 81 || n == 82 || n == 284 || n == 285

/-- SPRAccess(n, dir) (R587): `implemented` is Implemented(n, dir), `k` the access. -/
def sprAccess (n : BitVec 10) (implemented : Bool) (s : State) (k : State → Result) : Result :=
  let denied := msrPR s.msr && sprSupervisor n
  if sprExternal n then
    if denied then privileged s
    else if !implemented || s.platform.sprErrors.contains n then softwareEmulation s
    else k s
  else
    if !implemented then softwareEmulation s
    else if denied then privileged s
    else k s

/-- Debug mode is enabled and the processor is not in debug mode: row 2 of Tables 8-25 and 8-26. -/
def State.developmentLocked (s : State) : Bool := s.debugEnabled && !s.inDebug

/-- The value of a counter after an access that makes it count itself: CNTV a free value (R743, U17). -/
def State.selfCount (s : State) (own : Bool) (v : Word) : Word × State :=
  if own then let d := s.draw; (insertBits v 0xFFFF0000#32 (d.1.setWidth 32), d.2) else (v, s)

/-- ICTRL with DIW0EN to DIW3EN, which TECR holds (61_development_support.md R746). -/
def State.readIctrl (s : State) : Word := insertBits s.ictrl 0x000000F0#32 ((s.port.tecr.extractLsb' 5 4).setWidth 32 <<< 4)
/-- LCTRL2 with DLW0EN and DLW1EN (61_development_support.md R746). -/
def State.readLctrl2 (s : State) : Word := insertBits s.lctrl2 0x00000003#32 ((s.port.tecr.extractLsb' 3 2).setWidth 32)

/-- A read of ECR, which clears it but in row 2 (62_debug_mode_and_port.md R770). -/
def State.readEcr (s : State) : Word × State := (s.ecr, if s.developmentLocked then s else { s with ecr := 0 })

/-- A read of COUNTA or COUNTB (R743). -/
def State.readCountA (s : State) : Word × State :=
  let own := s.countsOwnAccess s.countA 0
  let a := s.selfCount own s.countA
  let b := a.2.selfCount own a.1
  (b.1, { b.2 with countA := a.1 })
def State.readCountB (s : State) : Word × State :=
  let own := s.countsOwnAccess s.countB 1
  let a := s.selfCount own s.countB
  let b := a.2.selfCount own a.1
  (b.1, { b.2 with countB := a.1 })

/-- A read of ICCST, which clears CCER1 to CCER3 (D11). -/
def State.readIccst (s : State) : Word × State := (s.iccst, { s with iccst := s.iccst &&& 0xFFC7FFFF#32 })

/-- A read of DPDR outside debug mode: indeterminate data (62_debug_mode_and_port.md R770). -/
def State.readDpdr (s : State) : Word × State := let d := s.draw; (d.1.setWidth 32, d.2)

/-- ReadSPR(n) (R589), for an implemented register; any other number gives 0 and is never asked for. -/
def State.readSpr (s : State) (n : BitVec 10) : Word × State :=
  match n.toNat with
  | 1 => (s.xer, s)
  | 8 => (s.lr, s)
  | 9 => (s.ctr, s)
  | 18 => (s.dsisr, s)
  | 19 => (s.dar, s)
  | 22 => (s.dec, s)
  | 26 => (s.srr0, s)
  | 27 => (s.srr1, s)
  | 144 => (s.cmpA, s)
  | 145 => (s.cmpB, s)
  | 146 => (s.cmpC, s)
  | 147 => (s.cmpD, s)
  | 148 => s.readEcr
  | 149 => (s.der, s)
  | 150 => s.readCountA
  | 151 => s.readCountB
  | 152 => (s.cmpE, s)
  | 153 => (s.cmpF, s)
  | 154 => (s.cmpG, s)
  | 155 => (s.cmpH, s)
  | 156 => (s.lctrl1, s)
  | 157 => (s.readLctrl2, s)
  | 158 => (s.readIctrl, s)
  | 159 => (s.bar, s)
  | 272 => (s.sprg0, s)
  | 273 => (s.sprg1, s)
  | 274 => (s.sprg2, s)
  | 275 => (s.sprg3, s)
  | 287 => (Config.pvrValue, s)
  | 560 => s.readIccst
  | 561 => (s.icadr, s)
  | 562 => (s.readIcdat, s)
  | 630 => s.readDpdr
  | 1022 => (s.fpecr, s)
  | _ => (0, s)

/-- A write of DEC: a change of bit 0 from 0 to 1 signals a request (60_exceptions.md R688). -/
def State.writeDec (s : State) (v : Word) : State :=
  { s with dec := v, decPending := s.decPending || (!bit s.dec 0 && bit v 0) }

/-- MSR[EE] and MSR[RI] (10_state.md R53). -/
def State.setEERI (s : State) (ee ri : Bool) : State := { s with msr := setBit (setBit s.msr 16 ee) 30 ri }

/-- A write of COUNTA or COUNTB (R743; 62_debug_mode_and_port.md R778). -/
def State.writeCountA (s : State) (v : Word) : State :=
  let x := s.selfCount (s.countsOwnAccess s.countA 0) (v &&& countMask)
  { x.2 with countA := x.1 }
def State.writeCountB (s : State) (v : Word) : State :=
  let x := s.selfCount (s.countsOwnAccess s.countB 1) (v &&& countMask)
  { x.2 with countB := x.1 }

/-- A write of a development-support register where it is performed (62_debug_mode_and_port.md R771 to R781); a write of ECR is
ignored, and the bits of TECR in ICTRL and LCTRL2 are read-only. -/
def State.writeDevelopment (s : State) (n : BitVec 10) (v : Word) : State :=
  match n.toNat with
  | 144 => { s with cmpA := v &&& cmpIMask }
  | 145 => { s with cmpB := v &&& cmpIMask }
  | 146 => { s with cmpC := v &&& cmpIMask }
  | 147 => { s with cmpD := v &&& cmpIMask }
  | 149 => { s with der := v &&& causeMask }
  | 150 => s.writeCountA v
  | 151 => s.writeCountB v
  | 152 => { s with cmpE := v }
  | 153 => { s with cmpF := v }
  | 154 => { s with cmpG := v }
  | 155 => { s with cmpH := v }
  | 156 => { s with lctrl1 := v &&& lctrl1Mask }
  | 157 => { s with lctrl2 := v &&& lctrl2Mask }
  | 158 => { s with ictrl := v &&& ictrlMask }
  | 159 => { s with bar := v }
  | _ => s

/-- A write of DPDR: to the port in debug mode, else ignored (62_debug_mode_and_port.md R752, R771). -/
def State.writeDpdr (s : State) (v : Word) : State :=
  if s.inDebug then { s with port := { s.port with data := some v } } else s

/-- WriteSPR(n, v) (R591), for an implemented register. -/
def State.writeSpr (s : State) (n : BitVec 10) (v : Word) : State :=
  if sprDevelopment n then (if s.developmentLocked then s else s.writeDevelopment n v)
  else
    match n.toNat with
    | 1 => { s with xer := v &&& xerMask }
    | 8 => { s with lr := v }
    | 9 => { s with ctr := v }
    | 18 => { s with dsisr := v }
    | 19 => { s with dar := v }
    | 22 => s.writeDec v
    | 26 => { s with srr0 := v }
    | 27 => { s with srr1 := v }
    | 80 => s.setEERI true true
    | 81 => s.setEERI false true
    | 82 => s.setEERI false false
    | 272 => { s with sprg0 := v }
    | 273 => { s with sprg1 := v }
    | 274 => { s with sprg2 := v }
    | 275 => { s with sprg3 := v }
    | 284 => { s with tb := (s.tb.extractLsb' 32 32 ++ v : BitVec 64) }
    | 285 => { s with tb := (v ++ s.tb.extractLsb' 0 32 : BitVec 64) }
    | 560 => s.cacheCommand v
    | 561 => { s with icadr := v }
    | 630 => s.writeDpdr v
    | 1022 => { s with fpecr := v &&& fpecrMask }
    | _ => s

end Sys2Proof.Machine
end

