-- ==== Sys2Proof/Machine/Control.lean ====
section
/-! DEFINITION. Processor control, synchronization, reservation and cache instructions
(49_processor_control_sync_cache.md R580 to R620). -/

namespace Sys2Proof.Machine

open Sys2Proof

/-- Move from condition register (R582). -/
def execMfcr (rD : Reg) (s : State) : Result := nextInstr (s.setR rD s.cr)

/-- Move to condition register fields (R580). -/
def execMtcrf (crm : BitVec 8) (rS : Reg) (s : State) : Result :=
  nextInstr { s with cr := insertBits s.cr (fieldMask crm) (s.r rS) }

/-- Move to condition register from XER (R581). -/
def execMcrxr (crfD : BitVec 3) (s : State) : Result :=
  nextInstr ({ s with xer := s.xer &&& 0x0FFFFFFF#32 }.setCr crfD (bits s.xer 0 4))

/-- Move from machine state register (R584). -/
def execMfmsr (rD : Reg) (s : State) : Result := supervisorOnly s fun s => nextInstr (s.setR rD s.msr)

/-- Move to machine state register (R583): then the floating-point enabled program exception with SRR0 = NIA. -/
def execMtmsr (rS : Reg) (s : State) : Result :=
  supervisorOnly s fun s =>
    .next ({ s with msr := s.r rS &&& msrMask }.advance.fpEnabledTest (s.pc + 4) 0x0011)

/-- Move from special-purpose register (R588); in debug mode a read of DPDR waits for the port (62_debug_mode_and_port.md R752). -/
def execMfspr (rD : Reg) (spr : BitVec 10) (s : State) : Result :=
  sprAccess spr (sprReadable spr) s fun s =>
    if spr = 630 ∧ s.inDebug then nextInstr { s with port := { s.port with wait := some rD } }
    else
      let x := s.readSpr spr
      nextInstr (x.2.setR rD x.1)

/-- Move to special-purpose register (R590). -/
def execMtspr (spr : BitVec 10) (rS : Reg) (s : State) : Result :=
  sprAccess spr (sprWritable spr) s fun s => nextInstr (s.writeSpr spr (s.r rS))

/-- Move from time base (R592); the time base lies outside the processor, and an error of the access takes the software emulation
exception (70_reset_and_hazards.md R812). -/
def execMftb (rD : Reg) (tbr : BitVec 10) (s : State) : Result :=
  if s.platform.sprErrors.contains tbr then softwareEmulation s
  else if tbr = 268 then nextInstr (s.setR rD (s.tb.extractLsb' 0 32))
  else if tbr = 269 then nextInstr (s.setR rD (s.tb.extractLsb' 32 32))
  else softwareEmulation s

/-- Synchronize: accesses are performed in program order, so nothing changes (R600, R609). -/
def execSync (s : State) : Result := nextInstr s

/-- Instruction synchronize: the prefetched instructions are discarded (R611; 20_memory.md R155). -/
def execIsync (s : State) : Result := nextInstr s.flushFetch

/-- Enforce in-order execution of I/O (R600, R610). -/
def execEieio (s : State) : Result := nextInstr s

/-- Load word and reserve indexed (R614; 20_memory.md R161). -/
def execLwarx (rD rA rB : Reg) (s : State) : Result :=
  let ea := s.eaX rA rB
  if ea.toNat % 4 ≠ 0 then alignment (.lwarx rD rA rB) ea s
  else
    match s.load ea 4 with
    | .busError e t => dataMachineCheck (.lwarx rD rA rB) e t
    | .done v t => nextInstr ({ t with reservation := some (granuleOf ea) }.setR rD (v.setWidth 32))

/-- Store word conditional indexed (R615; 20_memory.md R163). -/
def execStwcx (rS rA rB : Reg) (s : State) : Result :=
  let ea := s.eaX rA rB
  if ea.toNat % 4 ≠ 0 then alignment (.stwcx rS rA rB) ea s
  else if s.reservation.isNone then nextInstr (s.setCr 0 (withSO 0#3 s.xer))
  else
    match s.store ea 4 ((s.r rS).setWidth 64) with
    | .busError e t => dataMachineCheck (.stwcx rS rA rB) e t
    | .done _ t => nextInstr ({ t with reservation := none }.setCr 0 (withSO 1#3 t.xer))

/-- Instruction cache block invalidate (R612). -/
def execIcbi (rA rB : Reg) (s : State) : Result := nextInstr (s.invalidateBlock (s.eaX rA rB))

end Sys2Proof.Machine
end

