-- ==== Sys2Proof/Machine/FpArith.lean ====
section
/-! DEFINITION. Floating-point arithmetic and multiply-add instructions (43_fp_arith.md R346 to R372). -/

namespace Sys2Proof.Machine

open Sys2Proof

/-- An operation with its source operands. -/
inductive FpOp where
  | add (a b : Dword)
  | sub (a b : Dword)
  | mul (a c : Dword)
  | div (a b : Dword)
  | madd (a c b : Dword)
  | msub (a c b : Dword)
deriving DecidableEq, Repr

/-- The source operands in the order A, B, C. -/
def FpOp.operands : FpOp → List Dword
  | .add a b => [a, b]
  | .sub a b => [a, b]
  | .mul a c => [a, c]
  | .div a b => [a, b]
  | .madd a c b => [a, b, c]
  | .msub a c b => [a, b, c]

/-- NaNResult: the first NaN operand made quiet, else the generated QNaN (R342). -/
def nanResult (l : List Dword) : Dword :=
  match l.find? isNaN with
  | some d => quiet d
  | none => qnan0

/-- Infinity times zero. -/
def infTimesZero (a c : Dword) : Bool := (isInf a && isZero c) || (isZero a && isInf c)

/-- VXISI of a multiply-add: the product and the addend are infinities of opposite signs. -/
def productMinusInf (a c : Dword) (addendNeg : Bool) (b : Dword) : Bool :=
  !isNaN a && !isNaN c && !infTimesZero a c && (isInf a || isInf c) && isInf b && (fpSign a != fpSign c) != addendNeg

/-- The invalid-operation bits the operands cause (R347). -/
def FpOp.invalid (op : FpOp) : Word :=
  maskIf (op.operands.any isSNaN) fpVXSNAN |||
  match op with
  | .add a b => maskIf (isInf a && isInf b && fpSign a != fpSign b) fpVXISI
  | .sub a b => maskIf (isInf a && isInf b && fpSign a == fpSign b) fpVXISI
  | .mul a c => maskIf (infTimesZero a c) fpVXIMZ
  | .div a b => maskIf (isInf a && isInf b) fpVXIDI ||| maskIf (isZero a && isZero b) fpVXZDZ
  | .madd a c b => maskIf (infTimesZero a c) fpVXIMZ ||| maskIf (productMinusInf a c (fpSign b) b) fpVXISI
  | .msub a c b => maskIf (infTimesZero a c) fpVXIMZ ||| maskIf (productMinusInf a c (!fpSign b) b) fpVXISI

/-- A finite non-zero value divided by zero (R348). -/
def FpOp.zeroDivide : FpOp → Option Bool
  | .div a b => if isZero b && !isZero a && !isInf a then some (fpSign a != fpSign b) else none
  | _ => none

/-- The exact result on operands that are no NaN (R343, R344, R356 to R371). -/
def FpOp.exact (rn : BitVec 2) : FpOp → Num
  | .add a b => (numOf a).add rn (numOf b)
  | .sub a b => (numOf a).add rn (numOf b).neg
  | .mul a c => (numOf a).mul (numOf c)
  | .div a b => (numOf a).div (numOf b)
  | .madd a c b => ((numOf a).mul (numOf c)).add rn (numOf b)
  | .msub a c b => ((numOf a).mul (numOf c)).add rn (numOf b).neg

/-- Steps 4 to 8 of R346. -/
def FpOp.outcome (op : FpOp) (p : Precision) (neg : Bool) (f : Word) (traps sie : Bool) : FpOutcome :=
  if op.invalid != 0 then trapIf (fpVE f && traps) (signalled op.invalid (fpVE f) (nanResult op.operands))
  else if op.operands.any isNaN then .result (exactResult (nanResult op.operands))
  else
    match op.zeroDivide with
    | some sign => trapIf (fpZE f && traps) (signalled fpZX (fpZE f) (infOf sign))
    | none => deliver f traps sie p neg (op.exact (fpRN f))

/-- DenormOperand() of the operation: which operands are denormalized (R353). -/
def FpOp.denorm (op : FpOp) (s : State) : Result :=
  match op with
  | .add a b => denormOperand false (isDenormal b) (isDenormal a) s
  | .sub a b => denormOperand false (isDenormal b) (isDenormal a) s
  | .mul a c => denormOperand (isDenormal c) false (isDenormal a) s
  | .div a b => denormOperand false (isDenormal b) (isDenormal a) s
  | .madd a c b => denormOperand (isDenormal c) (isDenormal b) (isDenormal a) s
  | .msub a c b => denormOperand (isDenormal c) (isDenormal b) (isDenormal a) s

/-- A single-precision instruction on an operand that single format does not represent (R345): the result, the status bits of
the FPSCR and with Rc = 1 CR1 are undefined: free values each, with FEX and VX the functions of the others that they are; the control
bits stay. Or, by a free value, the floating-point assist exception is taken instead, but in SIE mode. DESIGN CHOICE against the spec's
`refuse` (log 8). -/
def undefinedSingle (frD : Reg) (rc : Bool) (s : State) : Result :=
  let d := s.draw
  let e := d.2.draw
  if !s.sie && dbit e.1 4 then raise .fpAssist e.2
  else
    let t := { e.2.setF frD d.1 with fpscr := fpSummary (insertBits s.fpscr 0xFFFFFF00#32 (e.1.setWidth 32)) }
    let u := t.setCauses (dbit e.1 0) (dbit e.1 1) (dbit e.1 2) (dbit e.1 3)
    finishFp (if rc then u.setCr 1 (e.1.extractLsb' 55 4) else u)

/-- FPArith (R346). -/
def fpArith (op : FpOp) (p : Precision) (neg : Bool) (frD : Reg) (rc : Bool) (s : State) : Result :=
  fpAvailable s fun s =>
    if p = .single ∧ !op.operands.all singleOK then undefinedSingle frD rc s
    else if p = .double ∧ op.operands.any isDenormal then op.denorm s
    else finishOutcome (op.outcome p neg s.fpscr s.fpTraps s.sie) frD rc s

/-- frD = frA + frB (R356). -/
def execFadd (frD frA frB : Reg) (rc : Bool) (s : State) : Result :=
  fpArith (.add (s.f frA) (s.f frB)) .double false frD rc s

/-- frD = frA + frB, in single precision (R357). -/
def execFadds (frD frA frB : Reg) (rc : Bool) (s : State) : Result :=
  fpArith (.add (s.f frA) (s.f frB)) .single false frD rc s

/-- frD = frA - frB (R358). -/
def execFsub (frD frA frB : Reg) (rc : Bool) (s : State) : Result :=
  fpArith (.sub (s.f frA) (s.f frB)) .double false frD rc s

/-- frD = frA - frB, in single precision (R359). -/
def execFsubs (frD frA frB : Reg) (rc : Bool) (s : State) : Result :=
  fpArith (.sub (s.f frA) (s.f frB)) .single false frD rc s

/-- frD = frA * frC (R360). -/
def execFmul (frD frA frC : Reg) (rc : Bool) (s : State) : Result :=
  fpArith (.mul (s.f frA) (s.f frC)) .double false frD rc s

/-- frD = frA * frC, in single precision (R361). -/
def execFmuls (frD frA frC : Reg) (rc : Bool) (s : State) : Result :=
  fpArith (.mul (s.f frA) (s.f frC)) .single false frD rc s

/-- frD = frA / frB (R362). -/
def execFdiv (frD frA frB : Reg) (rc : Bool) (s : State) : Result :=
  fpArith (.div (s.f frA) (s.f frB)) .double false frD rc s

/-- frD = frA / frB, in single precision (R363). -/
def execFdivs (frD frA frB : Reg) (rc : Bool) (s : State) : Result :=
  fpArith (.div (s.f frA) (s.f frB)) .single false frD rc s

/-- frD = frA * frC + frB, rounded once (R364). -/
def execFmadd (frD frA frC frB : Reg) (rc : Bool) (s : State) : Result :=
  fpArith (.madd (s.f frA) (s.f frC) (s.f frB)) .double false frD rc s

/-- frD = frA * frC + frB, rounded once, in single precision (R365). -/
def execFmadds (frD frA frC frB : Reg) (rc : Bool) (s : State) : Result :=
  fpArith (.madd (s.f frA) (s.f frC) (s.f frB)) .single false frD rc s

/-- frD = frA * frC - frB, rounded once (R366). -/
def execFmsub (frD frA frC frB : Reg) (rc : Bool) (s : State) : Result :=
  fpArith (.msub (s.f frA) (s.f frC) (s.f frB)) .double false frD rc s

/-- frD = frA * frC - frB, rounded once, in single precision (R367). -/
def execFmsubs (frD frA frC frB : Reg) (rc : Bool) (s : State) : Result :=
  fpArith (.msub (s.f frA) (s.f frC) (s.f frB)) .single false frD rc s

/-- frD = -(frA * frC + frB), negated after rounding (R368). -/
def execFnmadd (frD frA frC frB : Reg) (rc : Bool) (s : State) : Result :=
  fpArith (.madd (s.f frA) (s.f frC) (s.f frB)) .double true frD rc s

/-- frD = -(frA * frC + frB), negated after rounding, in single precision (R369). -/
def execFnmadds (frD frA frC frB : Reg) (rc : Bool) (s : State) : Result :=
  fpArith (.madd (s.f frA) (s.f frC) (s.f frB)) .single true frD rc s

/-- frD = -(frA * frC - frB), negated after rounding (R370). -/
def execFnmsub (frD frA frC frB : Reg) (rc : Bool) (s : State) : Result :=
  fpArith (.msub (s.f frA) (s.f frC) (s.f frB)) .double true frD rc s

/-- frD = -(frA * frC - frB), negated after rounding, in single precision (R371). -/
def execFnmsubs (frD frA frC frB : Reg) (rc : Bool) (s : State) : Result :=
  fpArith (.msub (s.f frA) (s.f frC) (s.f frB)) .single true frD rc s

end Sys2Proof.Machine
end

