-- ==== Sys2Proof/Machine/FpLoadStore.lean ====
section
/-! DEFINITION. Floating-point load, store and move instructions (47_load_store_fp_move.md R500 to R530). -/

namespace Sys2Proof.Machine

open Sys2Proof

/-- The alignment test of R501 (b): a word boundary in big-endian mode, the natural boundary in little-endian mode. -/
def State.fpMisaligned (s : State) (ea : Word) (n : Nat) : Bool :=
  if msrLE s.msr then ea.toNat % n != 0 else ea.toNat % 4 != 0

/-- DOUBLE(w) on a word that is no denormalized single (R511). -/
def doubleOf (w : Word) : Dword :=
  let e := (bits w 1 8).toNat
  let x := if 0 < e ∧ e < 255 then !bit w 1 else bit w 1
  (bits w 0 2 ++ BitVec.ofBool x ++ BitVec.ofBool x ++ BitVec.ofBool x ++ bits w 2 30 ++ 0#29 : BitVec 64)

/-- A denormalized single (R511). -/
def singleDenormal (w : Word) : Bool := bits w 1 8 == 0 && bits w 9 23 != 0

/-- SINGLE(s) has a stated word (R512). -/
def storeSingleOK (d : Dword) : Bool :=
  fpExp d == 2047 || (decide (897 ≤ fpExp d) && decide (fpExp d ≤ 1150) && d.extractLsb' 0 29 == 0#29)

/-- FPAssist of a single store: e ≠ 0 and e ≤ 896 (R512). -/
def storeSingleAssist (d : Dword) : Bool := fpExp d != 0 && decide (fpExp d ≤ 896)

/-- SINGLE(s) where it is stated (R512). -/
def singleOf (d : Dword) : Word :=
  if fpExp d = 0 then (BitVec.ofBool (fpSign d) ++ 0#31 : BitVec 32)
  else (d.extractLsb' 62 2 ++ d.extractLsb' 29 30 : BitVec 32)

/-- SINGLE(s), with a free word where the spec states none: results "boundedly undefined" (R512). DESIGN CHOICE against the
spec's `refuse` (log 9). -/
def State.single (s : State) (d : Dword) : Word × State :=
  if fpExp d = 0 ∨ storeSingleOK d then (singleOf d, s) else let x := s.draw; (x.1.setWidth 32, x.2)

/-- GPR[rA] <- EA for an update form (R502). -/
def State.updateBase (s : State) (update : Option Reg) (ea : Word) : State :=
  match update with
  | some rA => s.setR rA ea
  | none => s

/-- FPLoad(4, EA) and DOUBLE (R501, R503 to R506, R511). -/
def loadSingle (i : Instr) (frD : Reg) (update : Option Reg) (ea : Word) (s : State) : Result :=
  fpAvailable s fun s =>
    if s.fpMisaligned ea 4 then alignment i ea s
    else
      match s.load ea 4 with
      | .busError e t => dataMachineCheck i e t
      | .done v t =>
        if singleDenormal (v.setWidth 32) then raise .fpAssist t
        else nextInstr ((t.setF frD (doubleOf (v.setWidth 32))).updateBase update ea)

/-- FPLoad(8, EA) (R501, R507 to R510); the data comparators see none of its cycles (61_development_support.md R739). -/
def loadDouble (i : Instr) (frD : Reg) (update : Option Reg) (ea : Word) (s : State) : Result :=
  fpAvailable s fun s =>
    if s.fpMisaligned ea 8 then alignment i ea s
    else
      match s.load ea 8 false with
      | .busError e t => dataMachineCheck i e t
      | .done v t => nextInstr ((t.setF frD v).updateBase update ea)

/-- The write of FPStore (R501). -/
def storeFp (i : Instr) (n : Nat) (compares : Bool) (v : Dword) (update : Option Reg) (ea : Word) (s : State) : Result :=
  match s.store ea n v compares with
  | .busError e t => dataMachineCheck i e t
  | .done _ t => nextInstr (t.updateBase update ea)

/-- FPStore(4, EA, SINGLE(FPR[frS])) (R501, R512 to R516). -/
def storeSingle (i : Instr) (frS : Reg) (update : Option Reg) (ea : Word) (s : State) : Result :=
  fpAvailable s fun s =>
    if s.fpMisaligned ea 4 then alignment i ea s
    else if storeSingleAssist (s.f frS) then raise .fpAssist s
    else
      let x := s.single (s.f frS)
      storeFp i 4 true (x.1.setWidth 64) update ea x.2

/-- FPStore(8, EA, FPR[frS]) (R501, R517 to R520). -/
def storeDouble (i : Instr) (frS : Reg) (update : Option Reg) (ea : Word) (s : State) : Result :=
  fpAvailable s fun s =>
    if s.fpMisaligned ea 8 then alignment i ea s
    else storeFp i 8 false (s.f frS) update ea s

/-- Store floating-point as integer word indexed (R521). -/
def execStfiwx (frS rA rB : Reg) (s : State) : Result :=
  fpAvailable s fun s =>
    let ea := s.eaX rA rB
    if s.fpMisaligned ea 4 then alignment (.stfiwx frS rA rB) ea s
    else storeFp (.stfiwx frS rA rB) 4 true ((s.f frS).setWidth 32 |>.setWidth 64) none ea s

/-- FPMove(f) (R524). In SIE mode the cause bits of FPECR are written, with DNB for a denormalized frB, whose sign does not matter
(10_state.md R57; log 15). -/
def fpMove (v : Dword) (frD : Reg) (rc : Bool) (s : State) : Result :=
  fpAvailable s fun s => nextInstr (((s.setF frD v).setCauses false (isDenormal v) false false).recordFp rc)

/-- Load floating-point single (R503). -/
def execLfs (frD : Reg) (d : BitVec 16) (rA : Reg) (s : State) : Result :=
  loadSingle (.lfs frD d rA) frD none (s.eaD rA d) s

/-- Load floating-point single with update (R504). -/
def execLfsu (frD : Reg) (d : BitVec 16) (rA : Reg) (s : State) : Result :=
  loadSingle (.lfsu frD d rA) frD (some rA) (s.eaD rA d) s

/-- Load floating-point single indexed (R505). -/
def execLfsx (frD rA rB : Reg) (s : State) : Result :=
  loadSingle (.lfsx frD rA rB) frD none (s.eaX rA rB) s

/-- Load floating-point single with update indexed (R506). -/
def execLfsux (frD rA rB : Reg) (s : State) : Result :=
  loadSingle (.lfsux frD rA rB) frD (some rA) (s.eaX rA rB) s

/-- Load floating-point double (R507). -/
def execLfd (frD : Reg) (d : BitVec 16) (rA : Reg) (s : State) : Result :=
  loadDouble (.lfd frD d rA) frD none (s.eaD rA d) s

/-- Load floating-point double with update (R508). -/
def execLfdu (frD : Reg) (d : BitVec 16) (rA : Reg) (s : State) : Result :=
  loadDouble (.lfdu frD d rA) frD (some rA) (s.eaD rA d) s

/-- Load floating-point double indexed (R509). -/
def execLfdx (frD rA rB : Reg) (s : State) : Result :=
  loadDouble (.lfdx frD rA rB) frD none (s.eaX rA rB) s

/-- Load floating-point double with update indexed (R510). -/
def execLfdux (frD rA rB : Reg) (s : State) : Result :=
  loadDouble (.lfdux frD rA rB) frD (some rA) (s.eaX rA rB) s

/-- Store floating-point single (R513). -/
def execStfs (frS : Reg) (d : BitVec 16) (rA : Reg) (s : State) : Result :=
  storeSingle (.stfs frS d rA) frS none (s.eaD rA d) s

/-- Store floating-point single with update (R514). -/
def execStfsu (frS : Reg) (d : BitVec 16) (rA : Reg) (s : State) : Result :=
  storeSingle (.stfsu frS d rA) frS (some rA) (s.eaD rA d) s

/-- Store floating-point single indexed (R515). -/
def execStfsx (frS rA rB : Reg) (s : State) : Result :=
  storeSingle (.stfsx frS rA rB) frS none (s.eaX rA rB) s

/-- Store floating-point single with update indexed (R516). -/
def execStfsux (frS rA rB : Reg) (s : State) : Result :=
  storeSingle (.stfsux frS rA rB) frS (some rA) (s.eaX rA rB) s

/-- Store floating-point double (R517). -/
def execStfd (frS : Reg) (d : BitVec 16) (rA : Reg) (s : State) : Result :=
  storeDouble (.stfd frS d rA) frS none (s.eaD rA d) s

/-- Store floating-point double with update (R518). -/
def execStfdu (frS : Reg) (d : BitVec 16) (rA : Reg) (s : State) : Result :=
  storeDouble (.stfdu frS d rA) frS (some rA) (s.eaD rA d) s

/-- Store floating-point double indexed (R519). -/
def execStfdx (frS rA rB : Reg) (s : State) : Result :=
  storeDouble (.stfdx frS rA rB) frS none (s.eaX rA rB) s

/-- Store floating-point double with update indexed (R520). -/
def execStfdux (frS rA rB : Reg) (s : State) : Result :=
  storeDouble (.stfdux frS rA rB) frS (some rA) (s.eaX rA rB) s

/-- frD = frB (R525). -/
def execFmr (frD frB : Reg) (rc : Bool) (s : State) : Result :=
  fpMove (s.f frB) frD rc s

/-- frD = frB with bit 0 inverted (R526). -/
def execFneg (frD frB : Reg) (rc : Bool) (s : State) : Result :=
  fpMove (negate (s.f frB)) frD rc s

/-- frD = frB with bit 0 cleared (R527). -/
def execFabs (frD frB : Reg) (rc : Bool) (s : State) : Result :=
  fpMove (s.f frB &&& 0x7FFFFFFFFFFFFFFF#64) frD rc s

/-- frD = frB with bit 0 set (R528). -/
def execFnabs (frD frB : Reg) (rc : Bool) (s : State) : Result :=
  fpMove (s.f frB ||| 0x8000000000000000#64) frD rc s

end Sys2Proof.Machine
end

