-- ==== Sys2Proof/Machine/IntArith.lean ====
section
/-! DEFINITION. Integer arithmetic instructions (40_integer_arith.md R240 to R269). -/

namespace Sys2Proof.Machine

open Sys2Proof

/-- End of an instruction of the family (R240): rD, then OV and SO when OE = 1, then CR0 when Rc = 1. -/
def arith (rD : Reg) (v : Word) (ov oe rc : Bool) (s : State) : Result :=
  nextInstr (((s.setR rD v).setOVIf oe ov).recordIf rc v)

/-- The same for an instruction that always writes CA (R240). -/
def arithCarry (rD : Reg) (x : Sum) (oe rc : Bool) (s : State) : Result :=
  nextInstr ((((s.setR rD x.sum).setCA x.ca).setOVIf oe x.ov).recordIf rc x.sum)

/-- A division with an undefined quotient (R266, R267): rD and CR0[LT,GT,EQ] are free values, OV and SO and CR0[SO] are not. -/
def divideUndefined (rD : Reg) (oe rc : Bool) (s : State) : Result :=
  let d := s.draw
  let t := (d.2.setR rD (d.1.setWidth 32)).setOVIf oe true
  nextInstr (if rc then t.setCr 0 (withSO ((d.1 >>> 32).setWidth 3) t.xer) else t)

/-- rD = (rA|0) + sext_16(SIMM) (R242). -/
def execAddi (rD rA : Reg) (simm : BitVec 16) (s : State) : Result :=
  arith rD (s.rA0 rA + sext16 simm) false false false s

/-- rD = (rA|0) + (SIMM || 0x0000) (R243). -/
def execAddis (rD rA : Reg) (simm : BitVec 16) (s : State) : Result :=
  arith rD (s.rA0 rA + high16 simm) false false false s

/-- rD = rA + rB (R241). -/
def execAdd (rD rA rB : Reg) (oe rc : Bool) (s : State) : Result :=
  let x := add32 (s.r rA) (s.r rB) false
  arith rD x.sum x.ov oe rc s

/-- rD = rA + sext_16(SIMM), with CA (R244). -/
def execAddic (rD rA : Reg) (simm : BitVec 16) (s : State) : Result :=
  arithCarry rD (add32 (s.r rA) (sext16 simm) false) false false s

/-- rD = rA + sext_16(SIMM), with CA and CR0 (R245). -/
def execAddicRc (rD rA : Reg) (simm : BitVec 16) (s : State) : Result :=
  arithCarry rD (add32 (s.r rA) (sext16 simm) false) false true s

/-- rD = rA + rB, with CA (R246). -/
def execAddc (rD rA rB : Reg) (oe rc : Bool) (s : State) : Result :=
  arithCarry rD (add32 (s.r rA) (s.r rB) false) oe rc s

/-- rD = rA + rB + CA, with CA (R247). -/
def execAdde (rD rA rB : Reg) (oe rc : Bool) (s : State) : Result :=
  arithCarry rD (add32 (s.r rA) (s.r rB) (xerCA s.xer)) oe rc s

/-- rD = rA + CA - 1, with CA (R248). -/
def execAddme (rD rA : Reg) (oe rc : Bool) (s : State) : Result :=
  arithCarry rD (add32 (s.r rA) 0xFFFFFFFF#32 (xerCA s.xer)) oe rc s

/-- rD = rA + CA, with CA (R249). -/
def execAddze (rD rA : Reg) (oe rc : Bool) (s : State) : Result :=
  arithCarry rD (add32 (s.r rA) 0 (xerCA s.xer)) oe rc s

/-- rD = rB - rA, as the sum of the complement of rA, rB and 1 (R252). -/
def execSubf (rD rA rB : Reg) (oe rc : Bool) (s : State) : Result :=
  let x := add32 (~~~(s.r rA)) (s.r rB) true
  arith rD x.sum x.ov oe rc s

/-- rD = rB - rA, with CA (R253). -/
def execSubfc (rD rA rB : Reg) (oe rc : Bool) (s : State) : Result :=
  arithCarry rD (add32 (~~~(s.r rA)) (s.r rB) true) oe rc s

/-- rD = sext_16(SIMM) - rA, with CA (R254). -/
def execSubfic (rD rA : Reg) (simm : BitVec 16) (s : State) : Result :=
  arithCarry rD (add32 (~~~(s.r rA)) (sext16 simm) true) false false s

/-- rD = rB + CA + the complement of rA, with CA (R255). -/
def execSubfe (rD rA rB : Reg) (oe rc : Bool) (s : State) : Result :=
  arithCarry rD (add32 (~~~(s.r rA)) (s.r rB) (xerCA s.xer)) oe rc s

/-- rD = CA - 1 + the complement of rA, with CA (R256). -/
def execSubfme (rD rA : Reg) (oe rc : Bool) (s : State) : Result :=
  arithCarry rD (add32 (~~~(s.r rA)) 0xFFFFFFFF#32 (xerCA s.xer)) oe rc s

/-- rD = CA + the complement of rA, with CA (R257). -/
def execSubfze (rD rA : Reg) (oe rc : Bool) (s : State) : Result :=
  arithCarry rD (add32 (~~~(s.r rA)) 0 (xerCA s.xer)) oe rc s

/-- rD = the complement of rA plus 1 (R258). -/
def execNeg (rD rA : Reg) (oe rc : Bool) (s : State) : Result :=
  let x := add32 (~~~(s.r rA)) 0 true
  arith rD x.sum x.ov oe rc s

/-- rD = the low word of rA * sext_16(SIMM); no flags (R262). -/
def execMulli (rD rA : Reg) (simm : BitVec 16) (s : State) : Result :=
  arith rD (s.r rA * sext16 simm) false false false s

/-- rD = the low word of rA * rB; OV when the signed product is no 32-bit integer (R263). -/
def execMullw (rD rA rB : Reg) (oe rc : Bool) (s : State) : Result :=
  arith rD (s.r rA * s.r rB) (productOverflows (s.r rA) (s.r rB)) oe rc s

/-- rD = the high word of the signed product (R264). -/
def execMulhw (rD rA rB : Reg) (rc : Bool) (s : State) : Result :=
  arith rD (BitVec.ofInt 32 (signedProduct (s.r rA) (s.r rB) / 2 ^ 32)) false false rc s

/-- rD = the high word of the unsigned product (R265). -/
def execMulhwu (rD rA rB : Reg) (rc : Bool) (s : State) : Result :=
  arith rD (BitVec.ofNat 32 ((s.r rA).toNat * (s.r rB).toNat / 2 ^ 32)) false false rc s

/-- rD = the signed quotient truncated toward zero (R266). -/
def execDivw (rD rA rB : Reg) (oe rc : Bool) (s : State) : Result :=
  let a := s.r rA
  let b := s.r rB
  if b = 0 ∨ (a = 0x80000000#32 ∧ b = 0xFFFFFFFF#32) then divideUndefined rD oe rc s
  else arith rD (BitVec.ofInt 32 (a.toInt.tdiv b.toInt)) false oe rc s

/-- rD = the unsigned quotient (R267). -/
def execDivwu (rD rA rB : Reg) (oe rc : Bool) (s : State) : Result :=
  let b := s.r rB
  if b = 0 then divideUndefined rD oe rc s
  else arith rD (BitVec.ofNat 32 ((s.r rA).toNat / b.toNat)) false oe rc s

end Sys2Proof.Machine
end

