-- ==== Sys2Proof/Machine/LoadStoreInt.lean ====
section
/-! DEFINITION. Integer load and store instructions (45_load_store_int.md R430 to R470). -/

namespace Sys2Proof.Machine

open Sys2Proof

/-- The value of an `n`-byte operand with zeros on the left. -/
def zeroExtend (v : Dword) : Word := v.setWidth 32
/-- A half word with its sign on the left (R441). -/
def signExtendHalf (v : Dword) : Word := (v.setWidth 16).signExtend 32
/-- The two low bytes exchanged. -/
def reverseHalf (v : BitVec 16) : BitVec 16 := (v.extractLsb' 0 8 ++ v.extractLsb' 8 8 : BitVec 16)
/-- The four bytes reversed. -/
def reverseWord (v : Word) : Word :=
  (v.extractLsb' 0 8 ++ v.extractLsb' 8 8 ++ v.extractLsb' 16 8 ++ v.extractLsb' 24 8 : BitVec 32)

/-- `Load(n, EA)` into rD, extended by `ext`, with the update of rA where the form has one (R431, R432): rA is written first, so
that with rA = rD the loaded value stays; with rA = 0 the EA goes to GPR[0]. -/
def loadInt (i : Instr) (n : Nat) (ext : Dword → Word) (rD : Reg) (update : Option Reg) (ea : Word) (s : State) : Result :=
  if s.leMisaligned ea n then alignment i ea s
  else
    match s.load ea n with
    | .busError e t => dataMachineCheck i e t
    | .done v t =>
      match update with
      | some rA => nextInstr ((t.setR rA ea).setR rD (ext v))
      | none => nextInstr (t.setR rD (ext v))

/-- `Store(n, EA, v)`, with the update of rA where the form has one (R431, R432). -/
def storeInt (i : Instr) (n : Nat) (v : Word) (update : Option Reg) (ea : Word) (s : State) : Result :=
  if s.leMisaligned ea n then alignment i ea s
  else
    match s.store ea n (v.setWidth 64) with
    | .busError e t => dataMachineCheck i e t
    | .done _ t =>
      match update with
      | some rA => nextInstr (t.setR rA ea)
      | none => nextInstr t

/-- Load byte and zero (R433). -/
def execLbz (rD : Reg) (d : BitVec 16) (rA : Reg) (s : State) : Result :=
  loadInt (.lbz rD d rA) 1 zeroExtend rD none (s.eaD rA d) s

/-- Load byte and zero with update (R434). -/
def execLbzu (rD : Reg) (d : BitVec 16) (rA : Reg) (s : State) : Result :=
  loadInt (.lbzu rD d rA) 1 zeroExtend rD (some rA) (s.eaD rA d) s

/-- Load byte and zero indexed (R435). -/
def execLbzx (rD rA rB : Reg) (s : State) : Result :=
  loadInt (.lbzx rD rA rB) 1 zeroExtend rD none (s.eaX rA rB) s

/-- Load byte and zero with update indexed (R436). -/
def execLbzux (rD rA rB : Reg) (s : State) : Result :=
  loadInt (.lbzux rD rA rB) 1 zeroExtend rD (some rA) (s.eaX rA rB) s

/-- Load half word and zero (R437). -/
def execLhz (rD : Reg) (d : BitVec 16) (rA : Reg) (s : State) : Result :=
  loadInt (.lhz rD d rA) 2 zeroExtend rD none (s.eaD rA d) s

/-- Load half word and zero with update (R438). -/
def execLhzu (rD : Reg) (d : BitVec 16) (rA : Reg) (s : State) : Result :=
  loadInt (.lhzu rD d rA) 2 zeroExtend rD (some rA) (s.eaD rA d) s

/-- Load half word and zero indexed (R439). -/
def execLhzx (rD rA rB : Reg) (s : State) : Result :=
  loadInt (.lhzx rD rA rB) 2 zeroExtend rD none (s.eaX rA rB) s

/-- Load half word and zero with update indexed (R440). -/
def execLhzux (rD rA rB : Reg) (s : State) : Result :=
  loadInt (.lhzux rD rA rB) 2 zeroExtend rD (some rA) (s.eaX rA rB) s

/-- Load half word algebraic (R441). -/
def execLha (rD : Reg) (d : BitVec 16) (rA : Reg) (s : State) : Result :=
  loadInt (.lha rD d rA) 2 signExtendHalf rD none (s.eaD rA d) s

/-- Load half word algebraic with update (R442). -/
def execLhau (rD : Reg) (d : BitVec 16) (rA : Reg) (s : State) : Result :=
  loadInt (.lhau rD d rA) 2 signExtendHalf rD (some rA) (s.eaD rA d) s

/-- Load half word algebraic indexed (R443). -/
def execLhax (rD rA rB : Reg) (s : State) : Result :=
  loadInt (.lhax rD rA rB) 2 signExtendHalf rD none (s.eaX rA rB) s

/-- Load half word algebraic with update indexed (R444). -/
def execLhaux (rD rA rB : Reg) (s : State) : Result :=
  loadInt (.lhaux rD rA rB) 2 signExtendHalf rD (some rA) (s.eaX rA rB) s

/-- Load word and zero (R445). -/
def execLwz (rD : Reg) (d : BitVec 16) (rA : Reg) (s : State) : Result :=
  loadInt (.lwz rD d rA) 4 zeroExtend rD none (s.eaD rA d) s

/-- Load word and zero with update (R446). -/
def execLwzu (rD : Reg) (d : BitVec 16) (rA : Reg) (s : State) : Result :=
  loadInt (.lwzu rD d rA) 4 zeroExtend rD (some rA) (s.eaD rA d) s

/-- Load word and zero indexed (R447). -/
def execLwzx (rD rA rB : Reg) (s : State) : Result :=
  loadInt (.lwzx rD rA rB) 4 zeroExtend rD none (s.eaX rA rB) s

/-- Load word and zero with update indexed (R448). -/
def execLwzux (rD rA rB : Reg) (s : State) : Result :=
  loadInt (.lwzux rD rA rB) 4 zeroExtend rD (some rA) (s.eaX rA rB) s

/-- Store byte (R451). -/
def execStb (rS : Reg) (d : BitVec 16) (rA : Reg) (s : State) : Result :=
  storeInt (.stb rS d rA) 1 (s.r rS) none (s.eaD rA d) s

/-- Store byte with update (R452). -/
def execStbu (rS : Reg) (d : BitVec 16) (rA : Reg) (s : State) : Result :=
  storeInt (.stbu rS d rA) 1 (s.r rS) (some rA) (s.eaD rA d) s

/-- Store byte indexed (R453). -/
def execStbx (rS rA rB : Reg) (s : State) : Result :=
  storeInt (.stbx rS rA rB) 1 (s.r rS) none (s.eaX rA rB) s

/-- Store byte with update indexed (R454). -/
def execStbux (rS rA rB : Reg) (s : State) : Result :=
  storeInt (.stbux rS rA rB) 1 (s.r rS) (some rA) (s.eaX rA rB) s

/-- Store half word (R455). -/
def execSth (rS : Reg) (d : BitVec 16) (rA : Reg) (s : State) : Result :=
  storeInt (.sth rS d rA) 2 (s.r rS) none (s.eaD rA d) s

/-- Store half word with update (R456). -/
def execSthu (rS : Reg) (d : BitVec 16) (rA : Reg) (s : State) : Result :=
  storeInt (.sthu rS d rA) 2 (s.r rS) (some rA) (s.eaD rA d) s

/-- Store half word indexed (R457). -/
def execSthx (rS rA rB : Reg) (s : State) : Result :=
  storeInt (.sthx rS rA rB) 2 (s.r rS) none (s.eaX rA rB) s

/-- Store half word with update indexed (R458). -/
def execSthux (rS rA rB : Reg) (s : State) : Result :=
  storeInt (.sthux rS rA rB) 2 (s.r rS) (some rA) (s.eaX rA rB) s

/-- Store word (R459). -/
def execStw (rS : Reg) (d : BitVec 16) (rA : Reg) (s : State) : Result :=
  storeInt (.stw rS d rA) 4 (s.r rS) none (s.eaD rA d) s

/-- Store word with update (R460). -/
def execStwu (rS : Reg) (d : BitVec 16) (rA : Reg) (s : State) : Result :=
  storeInt (.stwu rS d rA) 4 (s.r rS) (some rA) (s.eaD rA d) s

/-- Store word indexed (R461). -/
def execStwx (rS rA rB : Reg) (s : State) : Result :=
  storeInt (.stwx rS rA rB) 4 (s.r rS) none (s.eaX rA rB) s

/-- Store word with update indexed (R462). -/
def execStwux (rS rA rB : Reg) (s : State) : Result :=
  storeInt (.stwux rS rA rB) 4 (s.r rS) (some rA) (s.eaX rA rB) s

/-- Load half word byte-reversed indexed (R464). -/
def execLhbrx (rD rA rB : Reg) (s : State) : Result :=
  loadInt (.lhbrx rD rA rB) 2 (fun v => (reverseHalf (v.setWidth 16)).setWidth 32) rD none (s.eaX rA rB) s

/-- Load word byte-reversed indexed (R465). -/
def execLwbrx (rD rA rB : Reg) (s : State) : Result :=
  loadInt (.lwbrx rD rA rB) 4 (fun v => reverseWord (v.setWidth 32)) rD none (s.eaX rA rB) s

/-- Store half word byte-reversed indexed (R466). -/
def execSthbrx (rS rA rB : Reg) (s : State) : Result :=
  storeInt (.sthbrx rS rA rB) 2 ((reverseHalf ((s.r rS).setWidth 16)).setWidth 32) none (s.eaX rA rB) s

/-- Store word byte-reversed indexed (R467). -/
def execStwbrx (rS rA rB : Reg) (s : State) : Result :=
  storeInt (.stwbrx rS rA rB) 4 (reverseWord (s.r rS)) none (s.eaX rA rB) s

end Sys2Proof.Machine
end

