-- ==== Sys2Proof/Machine/LoadStoreMultiple.lean ====
section
/-! DEFINITION. Load and store multiple and move string instructions (46_load_store_multiple_string.md R480 to R487). -/

namespace Sys2Proof.Machine

open Sys2Proof

/-- A word from at most four bytes, the missing low-order ones zero (R483). -/
def packWord (bs : List Byte) : Word :=
  (bs.getD 0 0 ++ bs.getD 1 0 ++ bs.getD 2 0 ++ bs.getD 3 0 : BitVec 32)

/-- Load `k` registers from `r` on, wrapping from 31 to 0, from a list of bytes (R483). -/
def putRegs : Nat → Reg → List Byte → State → State
  | 0, _, _, s => s
  | k + 1, r, bs, s => putRegs k (r + 1) (bs.drop 4) (s.setR r (packWord (bs.take 4)))

/-- The bytes of `k` registers from `r` on, wrapping from 31 to 0 (R485). -/
def regBytes (s : State) : Nat → Reg → List Byte
  | 0, _ => []
  | k + 1, r => bytesOf 4 ((s.r r).setWidth 64) ++ regBytes s k (r + 1)

/-- The number of registers for `n` bytes. -/
def regCount (n : Nat) : Nat := (n + 3) / 4

/-- Is `r` one of the `k` registers from `rD` on? -/
def inRange (rD : Reg) (k : Nat) (r : Reg) : Bool := decide ((r - rD).toNat < k)

/-- LoadString and the loop of `lmw`: `n` bytes at `ea` into registers from `rD` on, in ascending aligned cycles; a bus error
leaves every register unchanged (R480 (d), (e); R481, R483). -/
def loadRegs (i : Instr) (rD : Reg) (ea : Word) (n : Nat) (s : State) : Result :=
  match readCycles true (splitCycles n ea n) s with
  | .busError e t => dataMachineCheck i e t
  | .done bs t => nextInstr (putRegs (regCount n) rD bs t)

/-- StoreString and the loop of `stmw`; a bus error leaves the earlier cycles in memory (R480 (e); R482, R485). -/
def storeRegs (i : Instr) (rS : Reg) (ea : Word) (n : Nat) (s : State) : Result :=
  match writeCycles true (splitCycles n ea n) ((regBytes s (regCount n) rS).take n) s with
  | .busError e t => dataMachineCheck i e t
  | .done _ t => nextInstr t

/-- The byte count of the immediate forms: NB, or 32 when NB = 0 (R483). -/
def immCount (nb : BitVec 5) : Nat := if nb = 0 then 32 else nb.toNat

/-- Load multiple word (R481). -/
def execLmw (rD : Reg) (d : BitVec 16) (rA : Reg) (s : State) : Result :=
  let ea := s.eaD rA d
  if msrLE s.msr || ea.toNat % 4 != 0 then
    alignmentOf (.lmw rD d rA) (some fun r => decide (rD.toNat ≤ r.toNat)) ea s
  else loadRegs (.lmw rD d rA) rD ea (4 * (32 - rD.toNat)) s

/-- Store multiple word (R482). -/
def execStmw (rS : Reg) (d : BitVec 16) (rA : Reg) (s : State) : Result :=
  let ea := s.eaD rA d
  if msrLE s.msr || ea.toNat % 4 != 0 then alignment (.stmw rS d rA) ea s
  else storeRegs (.stmw rS d rA) rS ea (4 * (32 - rS.toNat)) s

/-- Load string word immediate (R483). -/
def execLswi (rD rA : Reg) (nb : BitVec 5) (s : State) : Result :=
  let n := immCount nb
  if msrLE s.msr then alignmentOf (.lswi rD rA nb) (some (inRange rD (regCount n))) (s.rA0 rA) s
  else loadRegs (.lswi rD rA nb) rD (s.rA0 rA) n s

/-- Load string word indexed: with a count of 0 rD is a free value; the forms the spec marks `refuse` are refused (R484). -/
def execLswx (rD rA rB : Reg) (s : State) : Result :=
  let n := xerBytes s.xer
  if msrLE s.msr then alignmentOf (.lswx rD rA rB) (some (inRange rD (regCount n))) (s.eaX rA rB) s
  else if n = 0 then
    if rD = rA ∨ rD = rB then .refused .invalidLoadString
    else let x := s.draw; nextInstr (x.2.setR rD (x.1.setWidth 32))
  else if inRange rD (regCount n) rB then .refused .invalidLoadString
  else loadRegs (.lswx rD rA rB) rD (s.eaX rA rB) n s

/-- Store string word immediate (R485). -/
def execStswi (rS rA : Reg) (nb : BitVec 5) (s : State) : Result :=
  if msrLE s.msr then alignment (.stswi rS rA nb) (s.rA0 rA) s
  else storeRegs (.stswi rS rA nb) rS (s.rA0 rA) (immCount nb) s

/-- Store string word indexed; a count of 0 stores nothing (R486). -/
def execStswx (rS rA rB : Reg) (s : State) : Result :=
  if msrLE s.msr then alignment (.stswx rS rA rB) (s.eaX rA rB) s
  else storeRegs (.stswx rS rA rB) rS (s.eaX rA rB) (xerBytes s.xer) s

end Sys2Proof.Machine
end

