-- ==== Sys2Proof/Machine/RotateShift.lean ====
section
/-! DEFINITION. Integer rotate and shift instructions (42_rotate_shift.md R320 to R330). -/

namespace Sys2Proof.Machine

open Sys2Proof

/-- End of an instruction of the family: rA, and CR0 when Rc = 1 (R320). -/
def rotated (rA : Reg) (v : Word) (rc : Bool) (s : State) : Result :=
  nextInstr ((s.setR rA v).recordIf rc v)

/-- A shift amount in rB: GPR[rB][27:31] (R322, R326). -/
def shiftAmount (b : Word) : BitVec 5 := b.setWidth 5

/-- The mask of a right shift by n: MASK(n, 31), or 0 when bit 26 of the amount is set (R327, R328). -/
def shiftRightMask (n : BitVec 5) (big : Bool) : Word := if big then 0 else mask n 31

/-- An algebraic right shift by n, or by 32 and more when `big`: the result and the carry (R328, R329). -/
def shiftRightAlgebraic (v : Word) (n : BitVec 5) (big : Bool) : Word × Bool :=
  let r := rotl32 v (-n)
  let m := shiftRightMask n big
  let sgn := if bit v 0 then BitVec.allOnes 32 else 0
  ((r &&& m) ||| (sgn &&& ~~~m), bit v 0 && (r &&& ~~~m) != 0)

/-- End of `sraw` and `srawi`: rA, CA always, CR0 when Rc = 1 (R320). -/
def shiftedAlgebraic (rA : Reg) (x : Word × Bool) (rc : Bool) (s : State) : Result :=
  nextInstr (((s.setR rA x.1).setCA x.2).recordIf rc x.1)

/-- rA = ROTL32(rS, SH) & MASK(MB, ME) (R321). -/
def execRlwinm (rA rS : Reg) (sh mb me : BitVec 5) (rc : Bool) (s : State) : Result :=
  rotated rA (rotl32 (s.r rS) sh &&& mask mb me) rc s

/-- rA = ROTL32(rS, rB[27:31]) & MASK(MB, ME) (R322). -/
def execRlwnm (rA rS rB : Reg) (mb me : BitVec 5) (rc : Bool) (s : State) : Result :=
  rotated rA (rotl32 (s.r rS) (shiftAmount (s.r rB)) &&& mask mb me) rc s

/-- ROTL32(rS, SH) inserted into rA under MASK(MB, ME) (R323). -/
def execRlwimi (rA rS : Reg) (sh mb me : BitVec 5) (rc : Bool) (s : State) : Result :=
  rotated rA (insertBits (s.r rA) (mask mb me) (rotl32 (s.r rS) sh)) rc s

/-- rA = rS shifted left by rB[26:31] (R326). -/
def execSlw (rA rS rB : Reg) (rc : Bool) (s : State) : Result :=
  let n := shiftAmount (s.r rB)
  let m := if bit (s.r rB) 26 then 0 else mask 0 (31 - n)
  rotated rA (rotl32 (s.r rS) n &&& m) rc s

/-- rA = rS shifted right by rB[26:31] (R327). -/
def execSrw (rA rS rB : Reg) (rc : Bool) (s : State) : Result :=
  let n := shiftAmount (s.r rB)
  rotated rA (rotl32 (s.r rS) (-n) &&& shiftRightMask n (bit (s.r rB) 26)) rc s

/-- rA = rS shifted right algebraically by rB[26:31] (R328). -/
def execSraw (rA rS rB : Reg) (rc : Bool) (s : State) : Result :=
  shiftedAlgebraic rA (shiftRightAlgebraic (s.r rS) (shiftAmount (s.r rB)) (bit (s.r rB) 26)) rc s

/-- rA = rS shifted right algebraically by SH (R329). -/
def execSrawi (rA rS : Reg) (sh : BitVec 5) (rc : Bool) (s : State) : Result :=
  shiftedAlgebraic rA (shiftRightAlgebraic (s.r rS) sh false) rc s

end Sys2Proof.Machine
end

