-- ==== Sys2Proof/Machine/Dispatch.lean ====
section
/-! DEFINITION. The meaning of every instruction: one arm each, in the order of the family files. -/

namespace Sys2Proof.Machine

open Sys2Proof

-- The meaning of an instruction at CIA; each arm is one call of its definition.
def exec (i : Instr) (s : State) : Host.Outcome State Fault Refusal :=
  match i with
  -- Integer arithmetic (40_integer_arith.md)
  | .addi rD rA simm => Sys2Proof.Machine.execAddi rD rA simm s
  | .addis rD rA simm => Sys2Proof.Machine.execAddis rD rA simm s
  | .add rD rA rB oe rc => Sys2Proof.Machine.execAdd rD rA rB oe rc s
  | .addic rD rA simm => Sys2Proof.Machine.execAddic rD rA simm s
  | .addicRc rD rA simm => Sys2Proof.Machine.execAddicRc rD rA simm s
  | .addc rD rA rB oe rc => Sys2Proof.Machine.execAddc rD rA rB oe rc s
  | .adde rD rA rB oe rc => Sys2Proof.Machine.execAdde rD rA rB oe rc s
  | .addme rD rA oe rc => Sys2Proof.Machine.execAddme rD rA oe rc s
  | .addze rD rA oe rc => Sys2Proof.Machine.execAddze rD rA oe rc s
  | .subf rD rA rB oe rc => Sys2Proof.Machine.execSubf rD rA rB oe rc s
  | .subfic rD rA simm => Sys2Proof.Machine.execSubfic rD rA simm s
  | .subfc rD rA rB oe rc => Sys2Proof.Machine.execSubfc rD rA rB oe rc s
  | .subfe rD rA rB oe rc => Sys2Proof.Machine.execSubfe rD rA rB oe rc s
  | .subfme rD rA oe rc => Sys2Proof.Machine.execSubfme rD rA oe rc s
  | .subfze rD rA oe rc => Sys2Proof.Machine.execSubfze rD rA oe rc s
  | .neg rD rA oe rc => Sys2Proof.Machine.execNeg rD rA oe rc s
  | .mulli rD rA simm => Sys2Proof.Machine.execMulli rD rA simm s
  | .mullw rD rA rB oe rc => Sys2Proof.Machine.execMullw rD rA rB oe rc s
  | .mulhw rD rA rB rc => Sys2Proof.Machine.execMulhw rD rA rB rc s
  | .mulhwu rD rA rB rc => Sys2Proof.Machine.execMulhwu rD rA rB rc s
  | .divw rD rA rB oe rc => Sys2Proof.Machine.execDivw rD rA rB oe rc s
  | .divwu rD rA rB oe rc => Sys2Proof.Machine.execDivwu rD rA rB oe rc s
  -- Integer compare and logical (41_integer_compare_logical.md)
  | .cmpi crfD l rA simm => Sys2Proof.Machine.execCmpi crfD l rA simm s
  | .cmp crfD l rA rB => Sys2Proof.Machine.execCmp crfD l rA rB s
  | .cmpli crfD l rA uimm => Sys2Proof.Machine.execCmpli crfD l rA uimm s
  | .cmpl crfD l rA rB => Sys2Proof.Machine.execCmpl crfD l rA rB s
  | .andiRc rA rS uimm => Sys2Proof.Machine.execAndiRc rA rS uimm s
  | .andisRc rA rS uimm => Sys2Proof.Machine.execAndisRc rA rS uimm s
  | .ori rA rS uimm => Sys2Proof.Machine.execOri rA rS uimm s
  | .oris rA rS uimm => Sys2Proof.Machine.execOris rA rS uimm s
  | .xori rA rS uimm => Sys2Proof.Machine.execXori rA rS uimm s
  | .xoris rA rS uimm => Sys2Proof.Machine.execXoris rA rS uimm s
  | .and rA rS rB rc => Sys2Proof.Machine.execAnd rA rS rB rc s
  | .or rA rS rB rc => Sys2Proof.Machine.execOr rA rS rB rc s
  | .xor rA rS rB rc => Sys2Proof.Machine.execXor rA rS rB rc s
  | .nand rA rS rB rc => Sys2Proof.Machine.execNand rA rS rB rc s
  | .nor rA rS rB rc => Sys2Proof.Machine.execNor rA rS rB rc s
  | .eqv rA rS rB rc => Sys2Proof.Machine.execEqv rA rS rB rc s
  | .andc rA rS rB rc => Sys2Proof.Machine.execAndc rA rS rB rc s
  | .orc rA rS rB rc => Sys2Proof.Machine.execOrc rA rS rB rc s
  | .extsb rA rS rc => Sys2Proof.Machine.execExtsb rA rS rc s
  | .extsh rA rS rc => Sys2Proof.Machine.execExtsh rA rS rc s
  | .cntlzw rA rS rc => Sys2Proof.Machine.execCntlzw rA rS rc s
  -- Integer rotate and shift (42_rotate_shift.md)
  | .rlwinm rA rS sh mb me rc => Sys2Proof.Machine.execRlwinm rA rS sh mb me rc s
  | .rlwnm rA rS rB mb me rc => Sys2Proof.Machine.execRlwnm rA rS rB mb me rc s
  | .rlwimi rA rS sh mb me rc => Sys2Proof.Machine.execRlwimi rA rS sh mb me rc s
  | .slw rA rS rB rc => Sys2Proof.Machine.execSlw rA rS rB rc s
  | .srw rA rS rB rc => Sys2Proof.Machine.execSrw rA rS rB rc s
  | .sraw rA rS rB rc => Sys2Proof.Machine.execSraw rA rS rB rc s
  | .srawi rA rS sh rc => Sys2Proof.Machine.execSrawi rA rS sh rc s
  -- Floating-point arithmetic (43_fp_arith.md)
  | .fadd frD frA frB rc => Sys2Proof.Machine.execFadd frD frA frB rc s
  | .fadds frD frA frB rc => Sys2Proof.Machine.execFadds frD frA frB rc s
  | .fsub frD frA frB rc => Sys2Proof.Machine.execFsub frD frA frB rc s
  | .fsubs frD frA frB rc => Sys2Proof.Machine.execFsubs frD frA frB rc s
  | .fmul frD frA frC rc => Sys2Proof.Machine.execFmul frD frA frC rc s
  | .fmuls frD frA frC rc => Sys2Proof.Machine.execFmuls frD frA frC rc s
  | .fdiv frD frA frB rc => Sys2Proof.Machine.execFdiv frD frA frB rc s
  | .fdivs frD frA frB rc => Sys2Proof.Machine.execFdivs frD frA frB rc s
  | .fmadd frD frA frC frB rc => Sys2Proof.Machine.execFmadd frD frA frC frB rc s
  | .fmadds frD frA frC frB rc => Sys2Proof.Machine.execFmadds frD frA frC frB rc s
  | .fmsub frD frA frC frB rc => Sys2Proof.Machine.execFmsub frD frA frC frB rc s
  | .fmsubs frD frA frC frB rc => Sys2Proof.Machine.execFmsubs frD frA frC frB rc s
  | .fnmadd frD frA frC frB rc => Sys2Proof.Machine.execFnmadd frD frA frC frB rc s
  | .fnmadds frD frA frC frB rc => Sys2Proof.Machine.execFnmadds frD frA frC frB rc s
  | .fnmsub frD frA frC frB rc => Sys2Proof.Machine.execFnmsub frD frA frC frB rc s
  | .fnmsubs frD frA frC frB rc => Sys2Proof.Machine.execFnmsubs frD frA frC frB rc s
  -- Floating-point rounding, conversion, compare and FPSCR (44_fp_convert_compare_fpscr.md)
  | .frsp frD frB rc => Sys2Proof.Machine.execFrsp frD frB rc s
  | .fctiw frD frB rc => Sys2Proof.Machine.execFctiw frD frB rc s
  | .fctiwz frD frB rc => Sys2Proof.Machine.execFctiwz frD frB rc s
  | .fcmpu crfD frA frB => Sys2Proof.Machine.execFcmpu crfD frA frB s
  | .fcmpo crfD frA frB => Sys2Proof.Machine.execFcmpo crfD frA frB s
  | .mffs frD rc => Sys2Proof.Machine.execMffs frD rc s
  | .mcrfs crfD crfS => Sys2Proof.Machine.execMcrfs crfD crfS s
  | .mtfsfi crfD imm rc => Sys2Proof.Machine.execMtfsfi crfD imm rc s
  | .mtfsf fm frB rc => Sys2Proof.Machine.execMtfsf fm frB rc s
  | .mtfsb0 crbD rc => Sys2Proof.Machine.execMtfsb0 crbD rc s
  | .mtfsb1 crbD rc => Sys2Proof.Machine.execMtfsb1 crbD rc s
  -- Integer load and store (45_load_store_int.md)
  | .lbz rD d rA => Sys2Proof.Machine.execLbz rD d rA s
  | .lbzu rD d rA => Sys2Proof.Machine.execLbzu rD d rA s
  | .lbzx rD rA rB => Sys2Proof.Machine.execLbzx rD rA rB s
  | .lbzux rD rA rB => Sys2Proof.Machine.execLbzux rD rA rB s
  | .lhz rD d rA => Sys2Proof.Machine.execLhz rD d rA s
  | .lhzu rD d rA => Sys2Proof.Machine.execLhzu rD d rA s
  | .lhzx rD rA rB => Sys2Proof.Machine.execLhzx rD rA rB s
  | .lhzux rD rA rB => Sys2Proof.Machine.execLhzux rD rA rB s
  | .lha rD d rA => Sys2Proof.Machine.execLha rD d rA s
  | .lhau rD d rA => Sys2Proof.Machine.execLhau rD d rA s
  | .lhax rD rA rB => Sys2Proof.Machine.execLhax rD rA rB s
  | .lhaux rD rA rB => Sys2Proof.Machine.execLhaux rD rA rB s
  | .lwz rD d rA => Sys2Proof.Machine.execLwz rD d rA s
  | .lwzu rD d rA => Sys2Proof.Machine.execLwzu rD d rA s
  | .lwzx rD rA rB => Sys2Proof.Machine.execLwzx rD rA rB s
  | .lwzux rD rA rB => Sys2Proof.Machine.execLwzux rD rA rB s
  | .stb rS d rA => Sys2Proof.Machine.execStb rS d rA s
  | .stbu rS d rA => Sys2Proof.Machine.execStbu rS d rA s
  | .stbx rS rA rB => Sys2Proof.Machine.execStbx rS rA rB s
  | .stbux rS rA rB => Sys2Proof.Machine.execStbux rS rA rB s
  | .sth rS d rA => Sys2Proof.Machine.execSth rS d rA s
  | .sthu rS d rA => Sys2Proof.Machine.execSthu rS d rA s
  | .sthx rS rA rB => Sys2Proof.Machine.execSthx rS rA rB s
  | .sthux rS rA rB => Sys2Proof.Machine.execSthux rS rA rB s
  | .stw rS d rA => Sys2Proof.Machine.execStw rS d rA s
  | .stwu rS d rA => Sys2Proof.Machine.execStwu rS d rA s
  | .stwx rS rA rB => Sys2Proof.Machine.execStwx rS rA rB s
  | .stwux rS rA rB => Sys2Proof.Machine.execStwux rS rA rB s
  | .lhbrx rD rA rB => Sys2Proof.Machine.execLhbrx rD rA rB s
  | .lwbrx rD rA rB => Sys2Proof.Machine.execLwbrx rD rA rB s
  | .sthbrx rS rA rB => Sys2Proof.Machine.execSthbrx rS rA rB s
  | .stwbrx rS rA rB => Sys2Proof.Machine.execStwbrx rS rA rB s
  -- Load and store multiple, move string (46_load_store_multiple_string.md)
  | .lmw rD d rA => Sys2Proof.Machine.execLmw rD d rA s
  | .stmw rS d rA => Sys2Proof.Machine.execStmw rS d rA s
  | .lswi rD rA nb => Sys2Proof.Machine.execLswi rD rA nb s
  | .lswx rD rA rB => Sys2Proof.Machine.execLswx rD rA rB s
  | .stswi rS rA nb => Sys2Proof.Machine.execStswi rS rA nb s
  | .stswx rS rA rB => Sys2Proof.Machine.execStswx rS rA rB s
  -- Floating-point load, store and move (47_load_store_fp_move.md)
  | .lfs frD d rA => Sys2Proof.Machine.execLfs frD d rA s
  | .lfsu frD d rA => Sys2Proof.Machine.execLfsu frD d rA s
  | .lfsx frD rA rB => Sys2Proof.Machine.execLfsx frD rA rB s
  | .lfsux frD rA rB => Sys2Proof.Machine.execLfsux frD rA rB s
  | .lfd frD d rA => Sys2Proof.Machine.execLfd frD d rA s
  | .lfdu frD d rA => Sys2Proof.Machine.execLfdu frD d rA s
  | .lfdx frD rA rB => Sys2Proof.Machine.execLfdx frD rA rB s
  | .lfdux frD rA rB => Sys2Proof.Machine.execLfdux frD rA rB s
  | .stfs frS d rA => Sys2Proof.Machine.execStfs frS d rA s
  | .stfsu frS d rA => Sys2Proof.Machine.execStfsu frS d rA s
  | .stfsx frS rA rB => Sys2Proof.Machine.execStfsx frS rA rB s
  | .stfsux frS rA rB => Sys2Proof.Machine.execStfsux frS rA rB s
  | .stfd frS d rA => Sys2Proof.Machine.execStfd frS d rA s
  | .stfdu frS d rA => Sys2Proof.Machine.execStfdu frS d rA s
  | .stfdx frS rA rB => Sys2Proof.Machine.execStfdx frS rA rB s
  | .stfdux frS rA rB => Sys2Proof.Machine.execStfdux frS rA rB s
  | .stfiwx frS rA rB => Sys2Proof.Machine.execStfiwx frS rA rB s
  | .fmr frD frB rc => Sys2Proof.Machine.execFmr frD frB rc s
  | .fneg frD frB rc => Sys2Proof.Machine.execFneg frD frB rc s
  | .fabs frD frB rc => Sys2Proof.Machine.execFabs frD frB rc s
  | .fnabs frD frB rc => Sys2Proof.Machine.execFnabs frD frB rc s
  -- Branch, condition register, system linkage and trap (48_branch_cr_system_trap.md)
  | .b li aa lk => Sys2Proof.Machine.execB li aa lk s
  | .bc bo bi bd aa lk => Sys2Proof.Machine.execBc bo bi bd aa lk s
  | .bclr bo bi lk => Sys2Proof.Machine.execBclr bo bi lk s
  | .bcctr bo bi lk => Sys2Proof.Machine.execBcctr bo bi lk s
  | .crand crbD crbA crbB => Sys2Proof.Machine.execCrand crbD crbA crbB s
  | .cror crbD crbA crbB => Sys2Proof.Machine.execCror crbD crbA crbB s
  | .crxor crbD crbA crbB => Sys2Proof.Machine.execCrxor crbD crbA crbB s
  | .crnand crbD crbA crbB => Sys2Proof.Machine.execCrnand crbD crbA crbB s
  | .crnor crbD crbA crbB => Sys2Proof.Machine.execCrnor crbD crbA crbB s
  | .creqv crbD crbA crbB => Sys2Proof.Machine.execCreqv crbD crbA crbB s
  | .crandc crbD crbA crbB => Sys2Proof.Machine.execCrandc crbD crbA crbB s
  | .crorc crbD crbA crbB => Sys2Proof.Machine.execCrorc crbD crbA crbB s
  | .mcrf crfD crfS => Sys2Proof.Machine.execMcrf crfD crfS s
  | .sc => Sys2Proof.Machine.execSc s
  | .rfi => Sys2Proof.Machine.execRfi s
  | .tw trapOn rA rB => Sys2Proof.Machine.execTw trapOn rA rB s
  | .twi trapOn rA simm => Sys2Proof.Machine.execTwi trapOn rA simm s
  -- Processor control, synchronization and cache (49_processor_control_sync_cache.md)
  | .mfcr rD => Sys2Proof.Machine.execMfcr rD s
  | .mtcrf crm rS => Sys2Proof.Machine.execMtcrf crm rS s
  | .mcrxr crfD => Sys2Proof.Machine.execMcrxr crfD s
  | .mfmsr rD => Sys2Proof.Machine.execMfmsr rD s
  | .mtmsr rS => Sys2Proof.Machine.execMtmsr rS s
  | .mfspr rD spr => Sys2Proof.Machine.execMfspr rD spr s
  | .mtspr spr rS => Sys2Proof.Machine.execMtspr spr rS s
  | .mftb rD tbr => Sys2Proof.Machine.execMftb rD tbr s
  | .sync => Sys2Proof.Machine.execSync s
  | .isync => Sys2Proof.Machine.execIsync s
  | .eieio => Sys2Proof.Machine.execEieio s
  | .lwarx rD rA rB => Sys2Proof.Machine.execLwarx rD rA rB s
  | .stwcx rS rA rB => Sys2Proof.Machine.execStwcx rS rA rB s
  | .icbi rA rB => Sys2Proof.Machine.execIcbi rA rB s

end Sys2Proof.Machine
end

