-- ==== Sys2Proof/Machine/HostEvents.lean ====
section
/-! DEFINITION. What the host does between two instructions: reset, ticks, request lines, other bus masters, and the development
port (60_exceptions.md R631, R660; 61_development_support.md R748; 62_debug_mode_and_port.md R749, R752, R760;
70_reset_and_hazards.md R800 to R805). -/

namespace Sys2Proof.Machine

open Sys2Proof

/-! Reset. -/

/-- Give a register a free value. -/
def State.drawInto (s : State) (set : State → Word → State) : State :=
  let d := s.draw
  set d.2 (d.1.setWidth 32)

/-- The registers that reset leaves undefined or says nothing about (10_state.md R80; U10, U11, U14, U19). -/
def State.undefinedAtReset (s : State) : State :=
  let s := s.drawInto fun t v => { t with srr0 := v }
  let s := s.drawInto fun t v => { t with srr1 := v }
  let s := s.drawInto fun t v => { t with icadr := v }
  let s := s.drawInto fun t v => { t with bar := v }
  let s := s.drawInto fun t v => { t with cmpA := v &&& cmpIMask }
  let s := s.drawInto fun t v => { t with cmpB := v &&& cmpIMask }
  let s := s.drawInto fun t v => { t with cmpC := v &&& cmpIMask }
  let s := s.drawInto fun t v => { t with cmpD := v &&& cmpIMask }
  let s := s.drawInto fun t v => { t with cmpE := v }
  let s := s.drawInto fun t v => { t with cmpF := v }
  let s := s.drawInto fun t v => { t with cmpG := v }
  let s := s.drawInto fun t v => { t with cmpH := v }
  let s := s.drawInto fun t v => { t with countA := v &&& 0xFFFF0000#32 }
  s.drawInto fun t v => { t with countB := v &&& 0xFFFF0000#32 }

/-- MSR after reset: ME unchanged, IP from RESET_IP, all other bits 0. -/
def resetMsr (resetIp : Bool) (msr : Word) : Word := setBit (msr &&& bitMask 19) 25 resetIp

/-- DoReset() (60_exceptions.md R660; 10_state.md R80; 70_reset_and_hazards.md R803). The cache arrays stay (R805; 20_memory.md
R182). DESIGN CHOICE: the burst buffer and the line buffer, of which no rule says what reset does, keep their contents too, and
fetches may still see older versions that they hold (log 22). -/
def State.doReset (s : State) (dsckAtReset dsckAfterReset : Bool) : State :=
  let t := s.undefinedAtReset
  let request := dsckAtReset && dsckAfterReset
  { t with
    msr := resetMsr s.platform.resetIp s.msr
    pc := vectorBase (resetMsr s.platform.resetIp s.msr) + 0x100
    fpecr := 0, iccst := 0, ictrl := 0, lctrl1 := 0, lctrl2 := 0
    ecr := 0, der := 0x2002000F#32
    reservation := none
    decPending := false, nmiPending := request, nmiAtReset := request, mebPending := false
    resetAsserted := false, checkstop := false, cutShort := false
    debugEnabled := dsckAtReset, inDebug := false, freeze := false
    port := .idle }.flushQueue

/-! The development port. -/

/-- The TECR update of a trap-enable transmission: a breakpoint bit that goes from 0 to 1 makes a request
(61_development_support.md R748). -/
def State.updateTecr (s : State) (control : Bool) (d : BitVec 7) : State :=
  let p := s.port
  if control then
    { s with
      nmiPending := s.nmiPending || (!p.tecr.getLsbD 1 && d.getLsbD 6)
      mebPending := s.mebPending || (!p.tecr.getLsbD 0 && d.getLsbD 5)
      port := { p with tecr := (p.tecr.extractLsb' 2 7 ++ d.extractLsb' 5 2 : BitVec 9) } }
  else { s with port := { p with tecr := (d ++ p.tecr.extractLsb' 0 2 : BitVec 9) } }

/-- A 35-bit transmission. -/
def Transmission.isCpu : Transmission → Bool
  | .trapEnable _ _ => false
  | .cpuInstr _ => true
  | .cpuData _ => true

/-- ShiftOut(kind) in debug mode (62_debug_mode_and_port.md R752): the status shifted out and the latches after. -/
def Port.shiftOut (p : Port) (cpu : Bool) : PortReply × Port :=
  match p.data with
  | some d => (if cpu then .validData d else .validDataHead (bits d 0 7), { p with data := none })
  | none =>
    if p.seq then (.sequenceError, { p with seq := false, exc := true })
    else if p.exc then (.cpuException, { p with exc := false })
    else (.null, p)

/-- A transmission outside debug mode (62_debug_mode_and_port.md R752, Table 8-19). DESIGN CHOICE (log 20): data that `rfi` left in
the port is kept and shifted out when debug mode is entered again. -/
def State.takeTransmission (s : State) (t : Transmission) : State :=
  if s.port.seq then { s with port := { s.port with seq := false, reply := some .sequenceError } }
  else
    let s := { s with port := { s.port with reply := some .null } }
    match t with
    | .trapEnable control d => s.updateTecr control d
    | _ => { s with port := { s.port with seq := true } }

/-- The transmissions that have come in outside debug mode. -/
def State.drainPort (s : State) : State :=
  s.port.inbox.foldl State.takeTransmission { s with port := { s.port with inbox := [] } }

/-! Events. -/

/-- TB_TICK: TB + 1 and DEC - 1, with the request when DEC[0] goes from 0 to 1 (10_state.md R43, R48; D3); nothing in checkstop
(U16). -/
def State.tick (s : State) : State :=
  if s.checkstop then s
  else
    let dec := s.dec - 1
    { s with tb := s.tb + 1, dec := dec, decPending := s.decPending || (!bit s.dec 0 && bit dec 0) }

/-- One event. -/
def State.deliver (s : State) : HostEvent → State
  | .tick => s.tick
  | .irq level => { s with irq := level }
  | .breakRequest => { s with mebPending := true }
  | .busWrite a v => s.busWrite a v
  | .busWriteDuring k a v =>
    if k = 0 then s.busWrite a v else { s with intrusions := s.intrusions ++ [{ cycle := k, addr := a, value := v }] }
  | .assertReset => { s with resetAsserted := true }
  | .assertResetDuring => if s.checkstop then { s with resetAsserted := true } else { s with cutShort := true }
  | .negateReset x y => if s.resetAsserted then s.doReset x y else s
  | .transmit t => { s with port := { s.port with inbox := s.port.inbox ++ [t] } }

/-- The events before the next instruction. -/
def State.deliverEvents (s : State) : State :=
  match s.events with
  | [] => s
  | now :: later => now.foldl State.deliver { s with events := later }

end Sys2Proof.Machine
end

