-- ==== Sys2Proof/Machine/Cycle.lean ====
section
/-! DEFINITION. One step: host events, asynchronous exceptions, fetch, breakpoints, the instruction, trace; and the step of debug
mode (60_exceptions.md R631, R646, R691; 62_debug_mode_and_port.md R752, R753). -/

namespace Sys2Proof.Machine

open Sys2Proof

/-- The branch instructions of the trace exception (60_exceptions.md R691 (b)). -/
def isBranch : Instr → Bool
  | .b _ _ _ => true
  | .bc _ _ _ _ _ => true
  | .bclr _ _ _ => true
  | .bcctr _ _ _ => true
  | _ => false

/-- The trace condition with the MSR before the instruction (60_exceptions.md R691). -/
def traced (msr : Word) (i : Instr) : Bool := (msrSE msr && i != .rfi) || (msrBE msr && isBranch i)

/-- An instruction that does not retire counts nothing (61_development_support.md R743). -/
def State.uncount (t before : State) : State := { t with countA := before.countA, countB := before.countB }

/-- What follows an instruction that gave a next state: `before` is the state it was met in, `iw` its I-bus watchpoints. -/
def State.afterInstr (t before : State) (i : Instr) (iw : Nat → Bool) : State :=
  match t.excTaken with
  | some .before => t.uncount before
  | some .after => t
  | none =>
    let b := t.lBreakpoint iw (before.pc + 4)
    if b.1 then b.2
    else if traced before.msr i then b.2.take .trace b.2.pc 0
    else b.2

/-- The instruction word at CIA: instruction breakpoint, decoding, execution (60_exceptions.md R631 C, R646). -/
def State.runWord (s : State) (w : Word) : Result :=
  let m := s.iBreakpoint
  if m.1 then .next (m.2.take .instrBreakpoint s.pc 0)
  else
    match decode w with
    | .error _ => .next ((m.2.take .softwareEmulation s.pc 0).uncount s)
    | .ok i =>
      match exec i m.2 with
      | .next t => .next (t.afterInstr s i s.iWatch)
      | .fault r => .fault r
      | .refused r => .refused r

/-- The address of the word fetched for CIA (20_memory.md R142). -/
def fetchAddr (msr pc : Word) : Word := if msrLE msr then pc ^^^ 4 else pc

/-- The state in which an instruction begins: no cycle made and no exception taken. -/
def State.fresh (s : State) : State := { s with lbus := [], excTaken := none }

/-- The instruction at CIA (60_exceptions.md R631 C; 20_memory.md R145). -/
def State.instruction (s : State) : Result :=
  match s.fresh.fetchAt (fetchAddr s.msr s.pc) with
  | .busError t => .next t.fetchMachineCheck
  | .word w t => t.runWord w

/-- In debug mode an external interrupt or a decrementer request with MSR[EE] = 1 is reported once per instruction
(62_debug_mode_and_port.md R753). -/
def State.reportRequests (s : State) : State :=
  let t := if s.irq && msrEE s.msr then s.take .external s.pc 0 else s
  if s.decPending && msrEE s.msr then t.take .decrementer t.pc 0 else t

/-- What follows an instruction of debug mode: the data breakpoint is reported, requests are reported unless the instruction left
debug mode or waits for its data, and CIA is not advanced (62_debug_mode_and_port.md R752, R753). DESIGN CHOICE (log 20): no trace
exception is reported, whatever the development tool has put into MSR[SE] and MSR[BE]. -/
def State.afterDebugInstr (t before : State) : State :=
  let u := if t.excTaken = none then (t.lBreakpoint (fun _ => false) before.pc).2 else t
  if !u.inDebug then u
  else
    let v := if u.port.wait.isNone then u.reportRequests else u
    { v with pc := before.pc }

/-- Execute(w) of debug mode (62_debug_mode_and_port.md R752). -/
def State.runDebugWord (s : State) (w : Word) : Result :=
  match decode w with
  | .error _ => .next ((s.take .softwareEmulation s.pc 0).afterDebugInstr s)
  | .ok i =>
    match exec i s with
    | .next t => .next (t.afterDebugInstr s)
    | .fault r => .fault r
    | .refused r => .refused r

/-- The fetch or the DPDR read is ended by a bus error, because the wrong kind of transmission came
(62_debug_mode_and_port.md R752, R753). DESIGN CHOICE (log 20): a read of DPDR that ends so does not count as an instruction
executed: no requests are reported after it. The exception clears the reservation (20_memory.md R164 (c)). -/
def State.sequenceError (s : State) : State :=
  { s with port := { s.port with seq := true, wait := none }, ecr := setBit s.ecr 3 true, reservation := none }

/-- One transmission in debug mode (62_debug_mode_and_port.md R752). -/
def State.debugTransmission (s : State) (t : Transmission) : Result :=
  let x := s.port.shiftOut t.isCpu
  let u := { s with port := { x.2 with reply := some x.1 } }
  match s.port.wait with
  | some rD =>
    match t with
    | .trapEnable control d => .next (u.updateTecr control d)
    | .cpuData v => .next ({ u.fresh.setR rD v with port := { u.port with wait := none } }.afterDebugInstr u)
    | .cpuInstr _ => .next u.sequenceError
  | none =>
    if x.1 = .sequenceError ∨ x.1 = .cpuException then .next u
    else
      match t with
      | .trapEnable control d => .next (u.updateTecr control d)
      | .cpuData _ => .next u.sequenceError
      | .cpuInstr w => u.fresh.runDebugWord w

/-- DebugStep() (62_debug_mode_and_port.md R752): nothing happens while no transmission has come. -/
def State.debugStep (s : State) : Result :=
  match s.port.inbox with
  | [] => .next s
  | t :: rest => { s with port := { s.port with inbox := rest } }.debugTransmission t

/-- The non-maskable external breakpoint (60_exceptions.md R700); requested at reset it leaves SRR0 and SRR1 undefined (U13). -/
def State.takeNmi (s : State) : State :=
  let t := { s with nmiPending := false, nmiAtReset := false }.take .nonMaskableBreakpoint s.pc 0
  if s.nmiAtReset then
    let a := t.draw
    let b := a.2.draw
    { b.2 with srr0 := a.1.setWidth 32, srr1 := b.1.setWidth 32 }
  else t

/-- Asynchronous exceptions in order of priority, else the instruction at CIA (60_exceptions.md R631 A to C). -/
def State.runStep (s : State) : Result :=
  if s.nmiPending then .next s.takeNmi
  else if s.mebPending && msrRI s.msr then .next ({ s with mebPending := false }.take .maskableBreakpoint s.pc 0)
  else if s.irq && msrEE s.msr then .next (s.take .external s.pc 0)
  else if s.decPending && msrEE s.msr then .next ({ s with decPending := false }.take .decrementer s.pc 0)
  else s.instruction

/-- The step of a machine that runs: debug mode or not. -/
def State.proceed (s : State) : Result := if s.inDebug then s.debugStep else s.drainPort.runStep

/-! RESET during an instruction (70_reset_and_hazards.md R802, D66). -/

/-- A request is taken in place of the instruction at CIA. -/
def State.requested (s : State) : Bool :=
  s.nmiPending || (s.mebPending && msrRI s.msr) || ((s.irq || s.decPending) && msrEE s.msr)

/-- The state of a step once its instruction is fetched, where it fetches one. -/
def State.begun (s : State) : State :=
  if s.inDebug || s.drainPort.requested then s
  else (s.drainPort.fresh.fetchAt (fetchAddr s.msr s.pc)).state

/-- A store cycle of an instruction that RESET cuts short: its bytes hold any value (93_implementation_defined.md U20). -/
def State.scribble (s : State) (c : BusCycle) : State :=
  if c.write then let d := s.draw; d.2.writeBytes c.addr (bytesOf c.size d.1) else s

/-- RESET came while the instruction that turned `s` into `t` was in progress: it is abandoned, RESET is asserted, and only what the
fetch left in the cache, and memory where the instruction stored, differ from `s` (R802, D66, U20). DESIGN CHOICE (log 22): `icbi`,
`isync` and a command of ICCST, abandoned, leave the arrays, the buffers and the older versions of words as the fetch left them. -/
def State.abandon (s t : State) : State :=
  let f := s.begun
  t.lbus.foldl State.scribble
    { s with
      mem := t.mem, icache := f.icache, intrusions := t.intrusions, freeCount := t.freeCount
      stale := if t.lbus = [] ∧ t.mem = f.mem then f.stale else t.stale
      resetAsserted := true, cutShort := false }

/-- What a step answers, with the writes of other bus masters that are left over made after it. -/
def settled : Result → Result
  | .next t => .next t.settle
  | .fault r => .fault r
  | .refused r => .refused r

/-- A step during which RESET is asserted: whatever the instruction is, it is abandoned. -/
def State.proceedCut (s : State) : Result :=
  let s := { s with lbus := [] }
  match s.proceed with
  | .next t => .next (s.abandon t)
  | .fault _ => .next (s.abandon s.begun)
  | .refused _ => .next (s.abandon s.begun)

/-- One step (60_exceptions.md R631): in checkstop, and while RESET is asserted, nothing executes. -/
def State.stepOnce (s : State) : Result :=
  let s := s.deliverEvents
  settled
    (if s.checkstop then .next s
     else if s.resetAsserted then .next s
     else if s.cutShort then s.proceedCut
     else s.proceed)

/-! Placing an instruction where the next step fetches it. -/

/-- A cache line that holds the word of `a` is dropped. -/
def CacheLine.dropIf (l : CacheLine) (a : Word) : CacheLine := if l.hits a then { l with valid := false } else l

/-- No copy of the word at `a` is left in the cache, the buffers or the prefetch queue. -/
def State.forget (s : State) (a : Word) : State :=
  let x := s.setFor a
  let c := s.icache.putSet (setOf a) { x with way0 := x.way0.dropIf a, way1 := x.way1.dropIf a }
  { s with
    icache := { c with burst := dropBuffer a c.burst, line := dropBuffer a c.line }
    stale := s.stale.filter fun e => e.addr != a }

/-- The word `w` stored at the address the next fetch reads, as memory holds it. -/
def State.placeWord (s : State) (w : Word) : State :=
  let a := fetchAddr s.msr s.pc
  { s.forget a with mem := putBytes s.mem a (bytesOfWord w) }

end Sys2Proof.Machine
end

