-- ==== Sys2Proof/Machine/Step.lean ====
section
/-! DEFINITION. The step of the machine, and the placing of one instruction where it fetches. -/

namespace Sys2Proof.Machine

open Sys2Proof

/-- One step (60_exceptions.md R631). -/
def step (s : State) : Host.Outcome State Fault Refusal := s.stepOnce

/-- `s` with the instruction of a table word stored where `step` fetches next. -/
def State.withFetchWord (s : State) (nbits w : Nat) : State := s.placeWord (tableWord nbits w)

end Sys2Proof.Machine
end

