-- ==== Sys2Proof/Safety.lean ====
section
/-! DEFINITION. The terms claims use: the invariant of the machine, what a safe state is, and what an instruction leaves
unchanged. -/

namespace Sys2Proof.Machine

open Sys2Proof

/-! The invariant. -/

/-- CIA is a multiple of 4 (10_state.md R36). -/
def State.pcAligned (s : State) : Prop := s.pc &&& 3#32 = 0

/-- Memory has its canonical form (log 4). -/
def State.memoryCanonical (s : State) : Prop := Memory.wf s.mem = true

/-- No bit outside `mask` is set. -/
def within (v mask : Word) : Prop := v &&& ~~~mask = 0

/-- The reserved bits of the user-level and supervisor-level registers are zero (10_state.md R31). -/
def State.reservedClear (s : State) : Prop :=
  within s.msr msrMask ∧ within s.xer xerMask ∧ within s.fpecr fpecrMask ∧ within s.iccst iccstMask

/-- The reserved bits of the development-support registers are zero (62_debug_mode_and_port.md R772 to R781). -/
def State.developmentReservedClear (s : State) : Prop :=
  within s.cmpA cmpIMask ∧ within s.cmpB cmpIMask ∧ within s.cmpC cmpIMask ∧ within s.cmpD cmpIMask ∧
  within s.ecr causeMask ∧ within s.der causeMask ∧ within s.countA countMask ∧ within s.countB countMask ∧
  within s.lctrl1 lctrl1Mask ∧ within s.lctrl2 lctrl2Mask ∧ within s.ictrl ictrlMask

/-- FPSCR[VX]: one of the nine invalid-operation bits is set (10_state.md R41). -/
def invalidSummary (f : Word) : Bool :=
  bit f 7 || bit f 8 || bit f 9 || bit f 10 || bit f 11 || bit f 12 || bit f 21 || bit f 22 || bit f 23

/-- FPSCR[FEX]: an exception bit is set together with its enable bit (10_state.md R41). -/
def enabledSummary (f : Word) : Bool :=
  (invalidSummary f && bit f 24) || (bit f 3 && bit f 25) || (bit f 4 && bit f 26) || (bit f 5 && bit f 27) ||
  (bit f 6 && bit f 28)

/-- VX and FEX are the functions of the other bits that R41 gives, and the reserved bit 20 is zero. -/
def State.fpscrSummed (s : State) : Prop :=
  bit s.fpscr 2 = invalidSummary s.fpscr ∧ bit s.fpscr 1 = enabledSummary s.fpscr ∧ bit s.fpscr 20 = false

/-- Debug mode is entered only when it is enabled (62_debug_mode_and_port.md R750). -/
def State.debugOnlyEnabled (s : State) : Prop := s.inDebug = true → s.debugEnabled = true

/-- A line of the cache is in one way of its set at most, and a locked line is valid (20_memory.md R168, R175). -/
def State.cacheSound (s : State) : Prop :=
  ∀ k : BitVec 7,
    let x := s.icache.setAt k
    ¬(x.way0.valid = true ∧ x.way1.valid = true ∧ x.way0.tag = x.way1.tag) ∧
    (x.way0.lock = true → x.way0.valid = true) ∧ (x.way1.lock = true → x.way1.valid = true)

/-- The invariant of the machine. -/
def State.inv (s : State) : Prop :=
  s.pcAligned ∧ s.memoryCanonical ∧ s.reservedClear ∧ s.developmentReservedClear ∧ s.fpscrSummed ∧
  s.debugOnlyEnabled ∧ s.cacheSound

/-- A safe state: the invariant holds and the machine is not in checkstop (60_exceptions.md R665). -/
def State.safe (s : State) : Prop := s.inv ∧ s.checkstop = false

/-! Frames. -/

/-- The bytes of memory read the same. -/
def sameMemory (s t : State) : Prop := ∀ a : Word, t.byteAt a = s.byteAt a

/-- The bytes of memory outside the `n` bytes from `a` on (modulo 2^32) read the same. -/
def sameMemoryBut (s t : State) (a : Word) (n : Nat) : Prop :=
  ∀ b : Word, n ≤ (b - a).toNat → t.byteAt b = s.byteAt b

/-- The general registers outside `ds` are unchanged. -/
def sameGprsBut (s t : State) (ds : List Reg) : Prop := ∀ n : Reg, n ∉ ds → t.r n = s.r n

/-- The floating-point registers outside `ds` are unchanged. -/
def sameFprsBut (s t : State) (ds : List Reg) : Prop := ∀ n : Reg, n ∉ ds → t.f n = s.f n

/-- The fields of CR other than `f` are unchanged. -/
def sameCrBut (s t : State) (f : BitVec 3) : Prop := ∀ g : BitVec 3, g ≠ f → crField t.cr g = crField s.cr g

/-- Nothing but general registers, CR, XER and CIA differs. -/
def onlyInteger (s t : State) : Prop := t = { s with gpr := t.gpr, cr := t.cr, xer := t.xer, pc := t.pc }

/-- Nothing but general registers, CIA and the record of bus cycles differs. -/
def onlyLoad (s t : State) : Prop := t = { s with gpr := t.gpr, pc := t.pc, lbus := t.lbus }

/-- Nothing but general registers, memory, what fetches may still see of it, CIA and the record of bus cycles differs. -/
def onlyStore (s t : State) : Prop :=
  t = { s with gpr := t.gpr, mem := t.mem, stale := t.stale, pc := t.pc, lbus := t.lbus }

/-- Nothing but floating-point registers, FPSCR, FPECR, CR, CIA and the count of free values differs. -/
def onlyFloat (s t : State) : Prop :=
  t = { s with fpr := t.fpr, fpscr := t.fpscr, fpecr := t.fpecr, cr := t.cr, pc := t.pc, freeCount := t.freeCount }

/-- Four bits as a CR field. -/
def crBits (b0 b1 b2 b3 : Bool) : BitVec 4 :=
  (BitVec.ofBool b0 ++ BitVec.ofBool b1 ++ BitVec.ofBool b2 ++ BitVec.ofBool b3 : BitVec 4)

/-- With Rc = 1, CR0 tells the sign of `v` and the new SO, and no other field changes; with Rc = 0, CR is unchanged
(10_state.md R35). -/
def recorded (rc : Bool) (v : Word) (s t : State) : Prop :=
  if rc then
    crField t.cr 0 = crBits (decide (v.toInt < 0)) (decide (0 < v.toInt)) (decide (v = 0)) (xerSO t.xer) ∧ sameCrBut s t 0
  else t.cr = s.cr

/-- With OE = 1, OV is `ov` and SO has `ov` added; with OE = 0, both are unchanged (40_integer_arith.md R240). -/
def overflowed (oe ov : Bool) (s t : State) : Prop :=
  if oe then xerOV t.xer = ov ∧ xerSO t.xer = (xerSO s.xer || ov)
  else xerOV t.xer = xerOV s.xer ∧ xerSO t.xer = xerSO s.xer

/-- The bits of XER other than SO, OV and CA are unchanged. -/
def sameXerRest (s t : State) : Prop := t.xer &&& 0x1FFFFFFF#32 = s.xer &&& 0x1FFFFFFF#32

/-- No cycle of the operand of `n` bytes at `ea` ends in a bus error, in little-endian mode the operand is aligned, and no other
bus master writes between the cycles (20_memory.md R140, R149, R152). -/
def State.accessible (s : State) (kind : AccessKind) (ea : Word) (n : Nat) : Prop :=
  s.leMisaligned ea n = false ∧ s.intrusions = [] ∧
  ∀ c ∈ s.operandCycles ea n, s.busError kind c.addr c.size = false

/-- The address on the bus of an operand of `n` bytes at `ea` (20_memory.md R138). -/
def State.busAddress (s : State) (ea : Word) (n : Nat) : Word := if msrLE s.msr then leModify ea n else ea

/-- The machine runs outside debug mode, and nothing comes from outside before or during its next instruction: no host event, no
reset, no transmission, no other bus master, no request that is to be taken (60_exceptions.md R631, R650). -/
def State.undisturbed (s : State) : Prop :=
  s.events = [] ∧ s.intrusions = [] ∧ s.cutShort = false ∧ s.checkstop = false ∧ s.resetAsserted = false ∧
  s.inDebug = false ∧ s.port.inbox = [] ∧ s.nmiPending = false ∧ (s.mebPending && msrRI s.msr) = false ∧
  (s.irq && msrEE s.msr) = false ∧ (s.decPending && msrEE s.msr) = false

/-- No facility of the step but the instruction itself does anything: undisturbed, and no breakpoint, watchpoint, counter or trace
(60_exceptions.md R631). -/
def State.quiet (s : State) : Prop :=
  s.undisturbed ∧ s.ictrl = 0 ∧ s.countA = 0 ∧ s.countB = 0 ∧ s.port.tecr = 0 ∧ msrSE s.msr = false ∧ msrBE s.msr = false

/-- The word at CIA comes from memory as it stands: the cache is disabled, no older version is left, no bus error
(20_memory.md R145, R184). -/
def State.fetchesWord (s : State) (w : Word) : Prop :=
  s.cacheOn = false ∧ s.stale = [] ∧ s.busError .fetch (fetchAddr s.msr s.pc) 4 = false ∧
  s.wordAt (fetchAddr s.msr s.pc) = w

end Sys2Proof.Machine
end

