-- ==== Sys2Proof/Safety/ControlForms.lean ====
section
/-! DEFINITION. Branches, condition register instructions, special registers and exception entries by shape, in the terms claims
use. -/

namespace Sys2Proof.Machine

open Sys2Proof

/-! Conditional branches (48_branch_cr_system_trap.md R541, R543 to R545). -/

/-- A conditional branch: its condition, its target, and whether it decrements CTR when BO asks it and sets LR. -/
structure BranchForm where
  bo : BitVec 5
  bi : BitVec 5
  target : Word
  decrements : Bool
  lk : Bool

/-- The conditional branches in their valid forms. -/
def branchForm (s : State) : Instr → Option BranchForm
  | .bc bo bi bd aa lk =>
    if validBO bo then
      let offset := (bd ++ 0#2 : BitVec 16).signExtend 32
      some { bo := bo, bi := bi, target := if aa then offset else s.pc + offset, decrements := !bo.getLsbD 2, lk := lk }
    else none
  | .bclr bo bi lk =>
    if validBO bo then
      some { bo := bo, bi := bi, target := s.lr &&& 0xFFFFFFFC#32, decrements := !bo.getLsbD 2, lk := lk }
    else none
  | .bcctr bo bi lk =>
    if validBOctr bo then
      some { bo := bo, bi := bi, target := s.ctr &&& 0xFFFFFFFC#32, decrements := false, lk := lk }
    else none
  | _ => none

/-- CTR after the branch. -/
def BranchForm.ctr (x : BranchForm) (s : State) : Word := if x.decrements then s.ctr - 1 else s.ctr

/-- The branch is taken: BO[0] or the CR bit equals BO[1]; and BO[2], or the new CTR is 0 exactly when BO[3] is 1. -/
def BranchForm.taken (x : BranchForm) (s : State) : Prop :=
  (x.bo.getLsbD 4 = true ∨ bit s.cr x.bi.toNat = x.bo.getLsbD 3) ∧
  (x.bo.getLsbD 2 = true ∨ (x.ctr s = 0 ↔ x.bo.getLsbD 1 = true))

/-! Condition register logical instructions (48_branch_cr_system_trap.md R547 to R555). -/

/-- A bit of CR from two bits of CR. -/
structure CrForm where
  crbD : BitVec 5
  value : Bool

/-- The condition register logical instructions. -/
def crForm (s : State) : Instr → Option CrForm
  | .crand d a b => some { crbD := d, value := bit s.cr a.toNat && bit s.cr b.toNat }
  | .cror d a b => some { crbD := d, value := bit s.cr a.toNat || bit s.cr b.toNat }
  | .crxor d a b => some { crbD := d, value := bit s.cr a.toNat != bit s.cr b.toNat }
  | .crnand d a b => some { crbD := d, value := !(bit s.cr a.toNat && bit s.cr b.toNat) }
  | .crnor d a b => some { crbD := d, value := !(bit s.cr a.toNat || bit s.cr b.toNat) }
  | .creqv d a b => some { crbD := d, value := bit s.cr a.toNat == bit s.cr b.toNat }
  | .crandc d a b => some { crbD := d, value := bit s.cr a.toNat && !bit s.cr b.toNat }
  | .crorc d a b => some { crbD := d, value := bit s.cr a.toNat || !bit s.cr b.toNat }
  | _ => none

/-! Traps (48_branch_cr_system_trap.md R566 to R568). -/

/-- The trap instructions: TO and the two words compared. -/
def trapForm (s : State) : Instr → Option (BitVec 5 × Word × Word)
  | .tw trapOn rA rB => some (trapOn, s.r rA, s.r rB)
  | .twi trapOn rA simm => some (trapOn, s.r rA, simm.signExtend 32)
  | _ => none

/-- A bit of TO is set whose comparison holds. -/
def traps (trapOn : BitVec 5) (a b : Word) : Prop :=
  (trapOn.getLsbD 4 = true ∧ a.toInt < b.toInt) ∨ (trapOn.getLsbD 3 = true ∧ b.toInt < a.toInt) ∨
  (trapOn.getLsbD 2 = true ∧ a = b) ∨
  (trapOn.getLsbD 1 = true ∧ a.toNat < b.toNat) ∨ (trapOn.getLsbD 0 = true ∧ b.toNat < a.toNat)

/-! Exception entry (60_exceptions.md R652 to R655). -/

/-- The MSR after an entry: EE, PR, FP, FE0, SE, BE, FE1 and RI are 0, LE is the old ILE, a machine check clears ME, and ME, IP
and ILE stay otherwise (R652). -/
def enteredMsr (x : Exc) (old new : Word) : Prop :=
  msrEE new = false ∧ msrPR new = false ∧ msrFP new = false ∧ msrFE0 new = false ∧ msrSE new = false ∧
  msrBE new = false ∧ msrFE1 new = false ∧ msrRI new = false ∧ msrLE new = msrILE old ∧ msrILE new = msrILE old ∧
  msrIP new = msrIP old ∧ msrME new = (if x = .machineCheck then false else msrME old) ∧ within new msrMask

/-- The handler's address, or debug mode when it is enabled and the bit of the exception in DER is set (R634, R636, R638). -/
def entersAt (x : Exc) (s t : State) : Prop :=
  if s.debugEnabled = true ∧ bit s.der x.causeBit = true then t.inDebug = true ∧ t.pc = s.pc
  else t.inDebug = false ∧ t.pc = (if msrIP s.msr then 0xFFF00000#32 else 0) + x.offset

/-- An entry from outside debug mode but for memory (R653): SRR0, SRR1, MSR, the bit of ECR, the reservation; and no register of the
program changes. -/
def entersRegisters (x : Exc) (ecrBit : Nat) (srr0 : Word) (info : BitVec 16) (s t : State) : Prop :=
  t.srr0 = srr0 &&& 0xFFFFFFFC#32 ∧ bits t.srr1 0 16 = info ∧ bits t.srr1 16 16 = bits s.msr 16 16 ∧
  enteredMsr x s.msr t.msr ∧ t.ecr = setBit s.ecr ecrBit true ∧ t.reservation = none ∧
  t.gpr = s.gpr ∧ t.fpr = s.fpr ∧ t.cr = s.cr ∧ t.xer = s.xer ∧ t.lr = s.lr ∧ t.ctr = s.ctr ∧ t.fpscr = s.fpscr

/-- An entry from outside debug mode (R653): the registers, the address, and memory as it was. -/
def enters (x : Exc) (srr0 : Word) (info : BitVec 16) (s t : State) : Prop :=
  entersRegisters x x.causeBit srr0 info s t ∧ entersAt x s t ∧ sameMemory s t

/-- What `exec` answers when it takes an exception of class Before: the entry with SRR0 = CIA (R640). -/
def raises (x : Exc) (info : BitVec 16) (i : Instr) (s : State) : Prop :=
  ∃ t, exec i s = .next t ∧ enters x s.pc info s t ∧ t.excTaken = some .before

/-! Bus errors (60_exceptions.md R664, R665). -/

/-- What a bus error does outside debug mode, by MSR[ME], debug mode enabled and DER[CHSTPE]: the machine check exception, debug
mode under ECR[CHSTP] in its place, or checkstop, which changes ECR[CHSTP] alone; `t` is compared with `s` but for memory. -/
def machineChecks (info : BitVec 16) (s t : State) : Prop :=
  if msrME s.msr = true then
    entersRegisters .machineCheck 3 s.pc info s t ∧ entersAt .machineCheck s t ∧ t.checkstop = s.checkstop
  else if s.debugEnabled = true ∧ bit s.der 2 = true then
    entersRegisters .machineCheck 2 s.pc info s t ∧ t.inDebug = true ∧ t.pc = s.pc ∧ t.checkstop = s.checkstop
  else t.checkstop = true ∧ t.ecr = setBit s.ecr 2 true ∧
    t = { s with
      checkstop := t.checkstop, ecr := t.ecr, excTaken := t.excTaken, lbus := t.lbus, mem := t.mem, stale := t.stale
      freeCount := t.freeCount }

/-- A bus error does not end in checkstop, so that the exception's registers are written. -/
def checks (s : State) : Prop := msrME s.msr = true ∨ (s.debugEnabled = true ∧ bit s.der 2 = true)

/-- The first cycle of a list that ends in a bus error. -/
def State.firstError (s : State) (kind : AccessKind) (cs : List Cycle) (c : Cycle) : Prop :=
  ∃ pre post, cs = pre ++ c :: post ∧ (∀ d ∈ pre, s.busError kind d.addr d.size = false) ∧
    s.busError kind c.addr c.size = true

/-! Watchpoints and breakpoints (61_development_support.md R734 to R746). -/

/-- Compare types: 4 equal, 5 less than, 6 greater than, 7 not equal, below 4 not active (R734). -/
def comparesAs (ct : BitVec 3) (v c : Int) : Prop :=
  (ct = 4#3 ∧ v = c) ∨ (ct = 5#3 ∧ v < c) ∨ (ct = 6#3 ∧ c < v) ∨ (ct = 7#3 ∧ v ≠ c)

/-- Comparator `k` of A to D, whose value is `cmp`, is true of the word address of the instruction at CIA (R734). -/
def State.comparatorHolds (s : State) (k : Nat) (cmp : Word) : Prop :=
  comparesAs (bits s.ictrl (3 * k) 3) (s.pc.toNat / 4 : ℕ) (cmp.toNat / 4 : ℕ)

/-- IW0 to IW3 of the instruction at CIA (R735). -/
def State.watchesInstr (s : State) (k : Nat) : Prop :=
  match k with
  | 0 =>
    (bits s.ictrl 12 2 = 2#2 ∧ s.comparatorHolds 0 s.cmpA) ∨
    (bits s.ictrl 12 2 = 3#2 ∧ s.comparatorHolds 0 s.cmpA ∧ s.comparatorHolds 1 s.cmpB)
  | 1 =>
    (bits s.ictrl 14 2 = 2#2 ∧ s.comparatorHolds 1 s.cmpB) ∨
    (bits s.ictrl 14 2 = 3#2 ∧ (s.comparatorHolds 0 s.cmpA ∨ s.comparatorHolds 1 s.cmpB))
  | 2 =>
    (bits s.ictrl 16 2 = 2#2 ∧ s.comparatorHolds 2 s.cmpC) ∨
    (bits s.ictrl 16 2 = 3#2 ∧ s.comparatorHolds 2 s.cmpC ∧ s.comparatorHolds 3 s.cmpD)
  | _ =>
    (bits s.ictrl 18 2 = 2#2 ∧ s.comparatorHolds 3 s.cmpD) ∨
    (bits s.ictrl 18 2 = 3#2 ∧ (s.comparatorHolds 2 s.cmpC ∨ s.comparatorHolds 3 s.cmpD))

/-- Internal breakpoints and counters are not masked: BRKNOMSK or MSR[RI] (R744). -/
def State.unmasked (s : State) : Prop := bit s.lctrl2 20 = true ∨ msrRI s.msr = true

/-- A watchpoint of the instruction at CIA is to break: asserted, unmasked, trap-enabled in ICTRL or in TECR, whose first bit is the
leftmost (R742, R746). -/
def State.matchesInstr (s : State) : Prop :=
  s.unmasked ∧ ∃ k, k < 4 ∧ s.watchesInstr k ∧ (bit s.ictrl (20 + k) = true ∨ s.port.tecr.getLsbD (8 - k) = true)

/-- A counter counts the watchpoint of the instruction: its source, unmasked, not yet 0 (R743). -/
def State.counts (s : State) (counter : Word) (source : BitVec 2) (watch : Prop) : Prop :=
  bits counter 30 2 = source ∧ watch ∧ s.unmasked ∧ bits counter 0 16 ≠ 0

/-- The instruction at CIA is itself counted by the counter it reads or writes (R743, U17). -/
def State.countsItself (s : State) (counter : Word) (k : Nat) : Prop :=
  bits counter 30 2 = 1#2 ∧ s.watchesInstr k ∧ s.unmasked ∧ s.inDebug = false

/-- A counter after an instruction that makes it count, or does not. -/
def countedIf (c : Prop) (old new : Word) : Prop := (c → new = old - 0x00010000#32) ∧ (¬c → new = old)

/-- The programming of data comparator G or H (R737). -/
def State.comparatorFields (s : State) (h : Bool) : BitVec 3 × BitVec 2 × Bool × BitVec 4 × Word :=
  if h then (bits s.lctrl1 9 3, bits s.lctrl1 18 2, bit s.lctrl1 21, bits s.lctrl1 26 4, s.cmpH)
  else (bits s.lctrl1 6 3, bits s.lctrl1 16 2, bit s.lctrl1 20, bits s.lctrl1 22 4, s.cmpG)

/-- Byte `i` of a word, from the left. -/
def leftByte (v : Word) (i : Nat) : Byte := (v >>> (8 * (3 - i))).setWidth 8

/-- Byte lane `i` of the bus carries data of the cycle, and that byte: the data, whose last byte is in lane addr % 4 + size - 1
(R737). -/
def BusCycle.hasLane (c : BusCycle) (i : Nat) : Prop := c.addr.toNat % 4 ≤ i ∧ i < c.addr.toNat % 4 + c.size
def BusCycle.laneByte (c : BusCycle) (i : Nat) : Byte := leftByte (c.data <<< (8 * (4 - c.size - c.addr.toNat % 4))) i

/-- The unit in which the address of the cycle is compared (R736): the bits within a word or half word are masked. -/
def BusCycle.unit (c : BusCycle) : Nat := if c.size = 4 then 4 else if c.size = 2 then 2 else 1

/-- A value and a reference as the comparator reads them. -/
def readAs (signed : Bool) {n : Nat} (v : BitVec n) : Int := if signed then v.toInt else v.toNat

/-- The comparator matches on byte lane `i` of the cycle: in byte mode its byte, in half word mode the half word that begins there,
in word mode the word; masked lanes never (R737, R739). -/
def State.laneMatches (s : State) (h : Bool) (c : BusCycle) (i : Nat) : Prop :=
  let (ct, size, signed, mask, value) := s.comparatorFields h
  let byte (k : Nat) : Byte := leftByte value k
  c.compares = true ∧
  ((size = 3#2 ∧ c.hasLane i ∧ mask.getLsbD (3 - i) = false ∧
      comparesAs ct (readAs signed (c.laneByte i)) (readAs signed (byte i))) ∨
   (size = 2#2 ∧ i % 2 = 0 ∧ c.hasLane i ∧ c.hasLane (i + 1) ∧
      mask.getLsbD (3 - i) = false ∧ mask.getLsbD (3 - (i + 1)) = false ∧
      comparesAs ct (readAs signed (c.laneByte i ++ c.laneByte (i + 1))) (readAs signed (byte i ++ byte (i + 1)))) ∨
   (size = 1#2 ∧ i = 0 ∧ c.size = 4 ∧ mask = 0#4 ∧ comparesAs ct (readAs signed c.data) (readAs signed value)))

/-- Comparator E or F is true of the cycle: the address without the bits within the transfer, read or write (R736). -/
def State.addressMatches (s : State) (f : Bool) (c : BusCycle) : Prop :=
  let ct := if f then bits s.lctrl1 3 3 else bits s.lctrl1 0 3
  let rw := if f then bits s.lctrl1 14 2 else bits s.lctrl1 12 2
  let cmp := if f then s.cmpF else s.cmpE
  comparesAs ct (c.addr.toNat / c.unit : ℕ) (cmp.toNat / c.unit : ℕ) ∧
  (rw = 2#2 → c.write = false) ∧ (rw = 3#2 → c.write = true)

/-- LWx of one cycle (R738): enabled, and the three conditions that are not "don't care"; `iw` tells the I-bus watchpoints. -/
def State.watchesData (s : State) (iw : Nat → Prop) (x : Nat) (c : BusCycle) : Prop :=
  let field (k : Nat) : Bool := bit s.lctrl2 (10 * x + k)
  let sel (k : Nat) : BitVec 2 := bits s.lctrl2 (10 * x + k) 2
  field 0 = true ∧
  (field 3 = true → iw (sel 1).toNat) ∧
  (field 6 = true →
    (sel 4 = 0#2 ∧ s.addressMatches false c) ∨ (sel 4 = 1#2 ∧ s.addressMatches true c) ∨
    (sel 4 = 2#2 ∧ s.addressMatches false c ∧ s.addressMatches true c) ∨
    (sel 4 = 3#2 ∧ (s.addressMatches false c ∨ s.addressMatches true c))) ∧
  (field 9 = true → ∃ i, i < 4 ∧
    ((sel 7 = 0#2 ∧ s.laneMatches false c i) ∨ (sel 7 = 1#2 ∧ s.laneMatches true c i) ∨
     (sel 7 = 2#2 ∧ s.laneMatches false c i ∧ s.laneMatches true c i) ∨
     (sel 7 = 3#2 ∧ (s.laneMatches false c i ∨ s.laneMatches true c i))))

/-- Data watchpoint `x` breaks: unmasked and trap-enabled in LCTRL2 or in TECR, or its counter expires (R738, R743, R746). -/
def State.breaksData (s : State) (counter : Word) (x : Nat) : Prop :=
  s.unmasked ∧
  (bit s.lctrl2 (28 + x) = true ∨ s.port.tecr.getLsbD (4 - x) = true ∨
    (bits counter 30 2 = 2#2 ∧ bits counter 0 16 = 1#16))

/-- The instruction at CIA meets no breakpoint of the I-bus and no counter counts it: no trap enable, no counter of the I-bus. -/
def State.noInstrBreakpoint (s : State) : Prop :=
  bits s.ictrl 20 4 = 0 ∧ s.port.tecr.extractLsb' 5 4 = 0 ∧ bits s.countA 30 2 ≠ 1#2 ∧ bits s.countB 30 2 ≠ 1#2

/-- The branch instructions, which MSR[BE] traces (60_exceptions.md R691). -/
def branches (i : Instr) : Prop :=
  (∃ li aa lk, i = .b li aa lk) ∨ (∃ bo bi bd aa lk, i = .bc bo bi bd aa lk) ∨ (∃ bo bi lk, i = .bclr bo bi lk) ∨
  (∃ bo bi lk, i = .bcctr bo bi lk)

/-! Special registers (49_processor_control_sync_cache.md R587 to R591). -/

/-- The registers whose contents a read delivers without a side effect, reserved bits zero. -/
def sprValue (s : State) (n : BitVec 10) : Option Word :=
  match n.toNat with
  | 1 => some s.xer
  | 8 => some s.lr
  | 9 => some s.ctr
  | 18 => some s.dsisr
  | 19 => some s.dar
  | 22 => some s.dec
  | 26 => some s.srr0
  | 27 => some s.srr1
  | 144 => some s.cmpA
  | 145 => some s.cmpB
  | 146 => some s.cmpC
  | 147 => some s.cmpD
  | 149 => some s.der
  | 152 => some s.cmpE
  | 153 => some s.cmpF
  | 154 => some s.cmpG
  | 155 => some s.cmpH
  | 156 => some s.lctrl1
  | 157 => some s.readLctrl2
  | 158 => some s.readIctrl
  | 159 => some s.bar
  | 272 => some s.sprg0
  | 273 => some s.sprg1
  | 274 => some s.sprg2
  | 275 => some s.sprg3
  | 287 => some Config.pvrValue
  | 561 => some s.icadr
  | 1022 => some s.fpecr
  | _ => none

/-- The bits that a write stores into those of them that can be written. -/
def sprStored (n : BitVec 10) : Option Word :=
  match n.toNat with
  | 1 => some 0xE000FF7F#32
  | 8 => some (BitVec.allOnes 32)
  | 9 => some (BitVec.allOnes 32)
  | 18 => some (BitVec.allOnes 32)
  | 19 => some (BitVec.allOnes 32)
  | 22 => some (BitVec.allOnes 32)
  | 26 => some (BitVec.allOnes 32)
  | 27 => some (BitVec.allOnes 32)
  | 144 => some 0xFFFFFFFC#32
  | 145 => some 0xFFFFFFFC#32
  | 146 => some 0xFFFFFFFC#32
  | 147 => some 0xFFFFFFFC#32
  | 149 => some 0x3FE7400F#32
  | 152 => some (BitVec.allOnes 32)
  | 153 => some (BitVec.allOnes 32)
  | 154 => some (BitVec.allOnes 32)
  | 155 => some (BitVec.allOnes 32)
  | 156 => some 0xFFFFFFFC#32
  | 159 => some (BitVec.allOnes 32)
  | 272 => some (BitVec.allOnes 32)
  | 273 => some (BitVec.allOnes 32)
  | 274 => some (BitVec.allOnes 32)
  | 275 => some (BitVec.allOnes 32)
  | 561 => some (BitVec.allOnes 32)
  | 1022 => some 0x8000000F#32
  | _ => none

/-- The registers a program at the user level may read and write: XER, LR and CTR (R586). -/
def sprUser (n : BitVec 10) : Prop := n = 1#10 ∨ n = 8#10 ∨ n = 9#10

/-- A register of the development support is locked: debug mode is enabled and the processor is not in it
(62_debug_mode_and_port.md R771). -/
def State.locked (s : State) : Prop := s.debugEnabled = true ∧ s.inDebug = false

/-- The program may access register `n` at its privilege level (R586). -/
def State.mayAccess (s : State) (n : BitVec 10) : Prop := msrPR s.msr = false ∨ sprSupervisor n = false

/-- The instructions that only the supervisor level may execute (R585, R587): `rfi`, `mfmsr`, `mtmsr`, and the moves from and to
a special register at the supervisor level that lies outside the processor or is implemented in that direction. -/
def privilegedForm : Instr → Bool
  | .rfi => true
  | .mfmsr _ => true
  | .mtmsr _ => true
  | .mfspr _ n => sprSupervisor n && (sprExternal n || sprReadable n)
  | .mtspr n _ => sprSupervisor n && (sprExternal n || sprWritable n)
  | _ => false

/-- What a program at the user level cannot write: MSR, the supervisor registers but the four cause bits of FPECR, the
development-support registers, the port. -/
def sameSupervisor (s t : State) : Prop :=
  t.msr = s.msr ∧ t.srr0 = s.srr0 ∧ t.srr1 = s.srr1 ∧ t.sprg0 = s.sprg0 ∧ t.sprg1 = s.sprg1 ∧ t.sprg2 = s.sprg2 ∧
  t.sprg3 = s.sprg3 ∧ t.dsisr = s.dsisr ∧ t.dar = s.dar ∧ t.dec = s.dec ∧ t.tb = s.tb ∧ t.iccst = s.iccst ∧
  t.icadr = s.icadr ∧ t.der = s.der ∧ t.ecr = s.ecr ∧ t.ictrl = s.ictrl ∧ t.lctrl1 = s.lctrl1 ∧ t.lctrl2 = s.lctrl2 ∧
  t.countA = s.countA ∧ t.countB = s.countB ∧ t.cmpA = s.cmpA ∧ t.cmpB = s.cmpB ∧ t.cmpC = s.cmpC ∧ t.cmpD = s.cmpD ∧
  t.cmpE = s.cmpE ∧ t.cmpF = s.cmpF ∧ t.cmpG = s.cmpG ∧ t.cmpH = s.cmpH ∧ t.bar = s.bar ∧ t.platform = s.platform ∧
  t.events = s.events ∧ t.port = s.port ∧ t.debugEnabled = s.debugEnabled ∧ t.inDebug = s.inDebug ∧
  t.freeze = s.freeze ∧ bits t.fpecr 0 28 = bits s.fpecr 0 28

/-! The instruction cache (20_memory.md R168 to R177). -/

/-- A way of a set. -/
def State.lineOfSet (s : State) (k : BitVec 7) (way : Bool) : CacheLine := (s.icache.setAt k).way way

/-- The line of the address is in the arrays. -/
def State.cached (s : State) (a : Word) : Prop := ∃ way, (s.lineOfSet (setOf a) way).hits a = true

/-- A fetch of one of the words of the line of the address ends in a bus error. -/
def State.lineFails (s : State) (a : Word) : Prop := ∃ k : BitVec 2, s.busError .fetch (lineWordAddr a k) 4 = true

/-- The line with the tag, the words and the state bits that a line of the address has after it was brought from memory. -/
def State.holdsLine (t : State) (way lock : Bool) (a : Word) (s : State) : Prop :=
  let l := t.lineOfSet (setOf a) way
  l.hits a = true ∧ l.lock = lock ∧ ∀ k : BitVec 2, l.pick k = s.wordAt (lineWordAddr a k)

end Sys2Proof.Machine
end

