-- ==== Sys2Proof/Safety/MemoryForms.lean ====
section
/-! DEFINITION. Load and store instructions by shape, in the terms claims use: the effective address, the bytes moved, and the
base register an update form writes. -/

namespace Sys2Proof.Machine

open Sys2Proof

/-- The half word at an address (20_memory.md R134). -/
def State.halfAt (s : State) (a : Word) : BitVec 16 := (s.byteAt a ++ s.byteAt (a + 1) : BitVec 16)

/-! Integer loads (45_load_store_int.md R433 to R448, R464, R465). -/

/-- A load of one operand: `size` bytes at `ea`, the word delivered as a function of the address on the bus. -/
structure LoadForm where
  rD : Reg
  ea : Word
  size : Nat
  value : Word → Word
  update : Option Reg

/-- A byte or half word with zeros on the left, a half word with its sign on the left, a word, and the reversed ones. -/
def State.zeroByte (s : State) (a : Word) : Word := (s.byteAt a).setWidth 32
def State.zeroHalf (s : State) (a : Word) : Word := (s.halfAt a).setWidth 32
def State.signedHalf (s : State) (a : Word) : Word := (s.halfAt a).signExtend 32
def State.reversedHalf (s : State) (a : Word) : Word := (s.byteAt (a + 1) ++ s.byteAt a : BitVec 16).setWidth 32
def State.reversedWord (s : State) (a : Word) : Word :=
  (s.byteAt (a + 3) ++ s.byteAt (a + 2) ++ s.byteAt (a + 1) ++ s.byteAt a : BitVec 32)

/-- The integer loads of one operand. -/
def loadForm (s : State) : Instr → Option LoadForm
  | .lbz rD d rA => some { rD := rD, ea := s.eaD rA d, size := 1, value := s.zeroByte, update := none }
  | .lbzu rD d rA => some { rD := rD, ea := s.eaD rA d, size := 1, value := s.zeroByte, update := some rA }
  | .lbzx rD rA rB => some { rD := rD, ea := s.eaX rA rB, size := 1, value := s.zeroByte, update := none }
  | .lbzux rD rA rB => some { rD := rD, ea := s.eaX rA rB, size := 1, value := s.zeroByte, update := some rA }
  | .lhz rD d rA => some { rD := rD, ea := s.eaD rA d, size := 2, value := s.zeroHalf, update := none }
  | .lhzu rD d rA => some { rD := rD, ea := s.eaD rA d, size := 2, value := s.zeroHalf, update := some rA }
  | .lhzx rD rA rB => some { rD := rD, ea := s.eaX rA rB, size := 2, value := s.zeroHalf, update := none }
  | .lhzux rD rA rB => some { rD := rD, ea := s.eaX rA rB, size := 2, value := s.zeroHalf, update := some rA }
  | .lha rD d rA => some { rD := rD, ea := s.eaD rA d, size := 2, value := s.signedHalf, update := none }
  | .lhau rD d rA => some { rD := rD, ea := s.eaD rA d, size := 2, value := s.signedHalf, update := some rA }
  | .lhax rD rA rB => some { rD := rD, ea := s.eaX rA rB, size := 2, value := s.signedHalf, update := none }
  | .lhaux rD rA rB => some { rD := rD, ea := s.eaX rA rB, size := 2, value := s.signedHalf, update := some rA }
  | .lwz rD d rA => some { rD := rD, ea := s.eaD rA d, size := 4, value := s.wordAt, update := none }
  | .lwzu rD d rA => some { rD := rD, ea := s.eaD rA d, size := 4, value := s.wordAt, update := some rA }
  | .lwzx rD rA rB => some { rD := rD, ea := s.eaX rA rB, size := 4, value := s.wordAt, update := none }
  | .lwzux rD rA rB => some { rD := rD, ea := s.eaX rA rB, size := 4, value := s.wordAt, update := some rA }
  | .lhbrx rD rA rB => some { rD := rD, ea := s.eaX rA rB, size := 2, value := s.reversedHalf, update := none }
  | .lwbrx rD rA rB => some { rD := rD, ea := s.eaX rA rB, size := 4, value := s.reversedWord, update := none }
  | _ => none

/-! Integer stores (45_load_store_int.md R451 to R462, R466, R467). -/

/-- A store of one operand: its bytes in the order of their addresses on the bus. -/
structure StoreForm where
  ea : Word
  bytes : List Byte
  update : Option Reg

/-- The `k`-th byte of a word, 0 the most significant. -/
def byteOf (v : Word) (k : Nat) : Byte := v.extractLsb' (8 * (3 - k)) 8

def byteOperand (v : Word) : List Byte := [byteOf v 3]
def halfOperand (v : Word) : List Byte := [byteOf v 2, byteOf v 3]
def wordOperand (v : Word) : List Byte := [byteOf v 0, byteOf v 1, byteOf v 2, byteOf v 3]

/-- The integer stores of one operand. -/
def storeForm (s : State) : Instr → Option StoreForm
  | .stb rS d rA => some { ea := s.eaD rA d, bytes := byteOperand (s.r rS), update := none }
  | .stbu rS d rA => some { ea := s.eaD rA d, bytes := byteOperand (s.r rS), update := some rA }
  | .stbx rS rA rB => some { ea := s.eaX rA rB, bytes := byteOperand (s.r rS), update := none }
  | .stbux rS rA rB => some { ea := s.eaX rA rB, bytes := byteOperand (s.r rS), update := some rA }
  | .sth rS d rA => some { ea := s.eaD rA d, bytes := halfOperand (s.r rS), update := none }
  | .sthu rS d rA => some { ea := s.eaD rA d, bytes := halfOperand (s.r rS), update := some rA }
  | .sthx rS rA rB => some { ea := s.eaX rA rB, bytes := halfOperand (s.r rS), update := none }
  | .sthux rS rA rB => some { ea := s.eaX rA rB, bytes := halfOperand (s.r rS), update := some rA }
  | .stw rS d rA => some { ea := s.eaD rA d, bytes := wordOperand (s.r rS), update := none }
  | .stwu rS d rA => some { ea := s.eaD rA d, bytes := wordOperand (s.r rS), update := some rA }
  | .stwx rS rA rB => some { ea := s.eaX rA rB, bytes := wordOperand (s.r rS), update := none }
  | .stwux rS rA rB => some { ea := s.eaX rA rB, bytes := wordOperand (s.r rS), update := some rA }
  | .sthbrx rS rA rB => some { ea := s.eaX rA rB, bytes := (halfOperand (s.r rS)).reverse, update := none }
  | .stwbrx rS rA rB => some { ea := s.eaX rA rB, bytes := (wordOperand (s.r rS)).reverse, update := none }
  | _ => none

/-! Multiple and string instructions (46_load_store_multiple_string.md R481 to R486). -/

/-- A transfer of `count` bytes at `ea` and of as many registers as they fill, from `first` on, 31 followed by 0. -/
structure TransferForm where
  first : Reg
  ea : Word
  count : Nat

/-- The byte count of an immediate string form. -/
def stringCount (nb : BitVec 5) : Nat := if nb = 0 then 32 else nb.toNat

/-- The loads of several registers in a valid form (the register rB of `lswx` is not loaded). -/
def transferLoad (s : State) : Instr → Option TransferForm
  | .lmw rD d rA =>
    if (s.eaD rA d).toNat % 4 = 0 then some { first := rD, ea := s.eaD rA d, count := 4 * (32 - rD.toNat) } else none
  | .lswi rD rA nb => some { first := rD, ea := s.rA0 rA, count := stringCount nb }
  | .lswx rD rA rB =>
    if 0 < xerBytes s.xer ∧ ∀ k, k < (xerBytes s.xer + 3) / 4 → rB ≠ rD + BitVec.ofNat 5 k then
      some { first := rD, ea := s.eaX rA rB, count := xerBytes s.xer }
    else none
  | _ => none

/-- The stores of several registers. -/
def transferStore (s : State) : Instr → Option TransferForm
  | .stmw rS d rA =>
    if (s.eaD rA d).toNat % 4 = 0 then some { first := rS, ea := s.eaD rA d, count := 4 * (32 - rS.toNat) } else none
  | .stswi rS rA nb => some { first := rS, ea := s.rA0 rA, count := stringCount nb }
  | .stswx rS rA rB => some { first := rS, ea := s.eaX rA rB, count := xerBytes s.xer }
  | _ => none

/-- The multiple and string instructions with their effective addresses. -/
def transferEa (s : State) : Instr → Option Word
  | .lmw _ d rA => some (s.eaD rA d)
  | .stmw _ d rA => some (s.eaD rA d)
  | .lswi _ rA _ => some (s.rA0 rA)
  | .stswi _ rA _ => some (s.rA0 rA)
  | .lswx _ rA rB => some (s.eaX rA rB)
  | .stswx _ rA rB => some (s.eaX rA rB)
  | _ => none

/-- Big-endian mode, no cycle of a transfer ends in a bus error, and no other bus master writes between the cycles. -/
def State.transferable (s : State) (kind : AccessKind) (x : TransferForm) : Prop :=
  msrLE s.msr = false ∧ s.intrusions = [] ∧ ∀ c ∈ splitCycles x.count x.ea x.count, s.busError kind c.addr c.size = false

/-- The byte a load puts into place `j` of the `k`-th register: a byte of memory, or zero past the end. -/
def State.transferByte (s : State) (x : TransferForm) (k j : Nat) : Byte :=
  if 4 * k + j < x.count then s.byteAt (x.ea + BitVec.ofNat 32 (4 * k + j)) else 0

/-! Floating-point loads, stores and moves (47_load_store_fp_move.md R503 to R528). -/

/-- A floating-point load or store: the register, the effective address and the base register to update. -/
structure FpAccessForm where
  fr : Reg
  ea : Word
  update : Option Reg

/-- The single loads. -/
def fpLoadSingle (s : State) : Instr → Option FpAccessForm
  | .lfs frD d rA => some { fr := frD, ea := s.eaD rA d, update := none }
  | .lfsu frD d rA => some { fr := frD, ea := s.eaD rA d, update := some rA }
  | .lfsx frD rA rB => some { fr := frD, ea := s.eaX rA rB, update := none }
  | .lfsux frD rA rB => some { fr := frD, ea := s.eaX rA rB, update := some rA }
  | _ => none

/-- The double loads. -/
def fpLoadDouble (s : State) : Instr → Option FpAccessForm
  | .lfd frD d rA => some { fr := frD, ea := s.eaD rA d, update := none }
  | .lfdu frD d rA => some { fr := frD, ea := s.eaD rA d, update := some rA }
  | .lfdx frD rA rB => some { fr := frD, ea := s.eaX rA rB, update := none }
  | .lfdux frD rA rB => some { fr := frD, ea := s.eaX rA rB, update := some rA }
  | _ => none

/-- The single stores. -/
def fpStoreSingle (s : State) : Instr → Option FpAccessForm
  | .stfs frS d rA => some { fr := frS, ea := s.eaD rA d, update := none }
  | .stfsu frS d rA => some { fr := frS, ea := s.eaD rA d, update := some rA }
  | .stfsx frS rA rB => some { fr := frS, ea := s.eaX rA rB, update := none }
  | .stfsux frS rA rB => some { fr := frS, ea := s.eaX rA rB, update := some rA }
  | _ => none

/-- The double stores. -/
def fpStoreDouble (s : State) : Instr → Option FpAccessForm
  | .stfd frS d rA => some { fr := frS, ea := s.eaD rA d, update := none }
  | .stfdu frS d rA => some { fr := frS, ea := s.eaD rA d, update := some rA }
  | .stfdx frS rA rB => some { fr := frS, ea := s.eaX rA rB, update := none }
  | .stfdux frS rA rB => some { fr := frS, ea := s.eaX rA rB, update := some rA }
  | _ => none

/-- No alignment exception, no bus error and no write of another bus master for a floating-point operand of `n` bytes (R501). -/
def State.fpAccessible (s : State) (kind : AccessKind) (ea : Word) (n : Nat) : Prop :=
  msrFP s.msr = true ∧ s.intrusions = [] ∧ ea.toNat % 4 = 0 ∧ (msrLE s.msr = true → ea.toNat % n = 0) ∧
  ∀ c ∈ s.operandCycles ea n, s.busError kind c.addr c.size = false

/-- A floating-point load or store and the bytes of its operand, `stfiwx` among them. -/
def fpAccess (s : State) (i : Instr) : Option (Word × Nat) :=
  match i with
  | .stfiwx _ rA rB => some (s.eaX rA rB, 4)
  | i =>
    match fpLoadSingle s i, fpStoreSingle s i, fpLoadDouble s i, fpStoreDouble s i with
    | some x, _, _, _ => some (x.ea, 4)
    | _, some x, _, _ => some (x.ea, 4)
    | _, _, some x, _ => some (x.ea, 8)
    | _, _, _, some x => some (x.ea, 8)
    | none, none, none, none => none

/-! What DSISR tells of an instruction (60_exceptions.md R673). -/

/-- DSISR[0:26] of the instruction word `w`: opcode bits of an X-form or of a D-form, and the field of rD. -/
def dsisrTells (w d : Word) : Prop :=
  bits d 0 15 = 0 ∧ bits d 22 5 = bits w 6 5 ∧
  (if bits w 0 6 = 31#6 then bits d 15 2 = bits w 29 2 ∧ bit d 17 = bit w 25 ∧ bits d 18 4 = bits w 21 4
   else bits d 15 2 = 0 ∧ bit d 17 = bit w 5 ∧ bits d 18 4 = bits w 1 4)

/-- The registers that `lmw`, `lswi` and `lswx` load. -/
def transferRegs (s : State) : Instr → Option (Reg → Prop)
  | .lmw rD _ _ => some fun r => rD.toNat ≤ r.toNat
  | .lswi rD _ nb => some fun r => ∃ k, k < (stringCount nb + 3) / 4 ∧ r = rD + BitVec.ofNat 5 k
  | .lswx rD _ _ => some fun r => ∃ k, k < (xerBytes s.xer + 3) / 4 ∧ r = rD + BitVec.ofNat 5 k
  | _ => none

/-- DSISR[27:31] of an alignment exception of `lmw`, `lswi` and `lswx`: the field of rA, or a register that is not loaded. -/
def dsisrHarmless (s : State) (i : Instr) (d : Word) : Prop :=
  ∀ p, transferRegs s i = some p → bits d 27 5 = bits (encode i) 11 5 ∨ ¬p (bits d 27 5)

/-- The exponent and the fraction of a single pattern. -/
def singleExp (w : Word) : Nat := (bits w 1 8).toNat
def singleFrac (w : Word) : Nat := (bits w 9 23).toNat

/-- `d` is the double pattern of the single pattern `w`, which is not denormalized (R511). -/
def doubleOfSingle (d : Dword) (w : Word) : Prop :=
  fpSign d = bit w 0 ∧ fpFrac d = singleFrac w * 2 ^ 29 ∧
  fpExp d = (if singleExp w = 0 then 0 else if singleExp w = 255 then 2047 else singleExp w + 896)

/-- The eight bytes of a double word, the most significant first. -/
def doubleOperand (d : Dword) : List Byte :=
  wordOperand (d.extractLsb' 32 32) ++ wordOperand (d.extractLsb' 0 32)

/-- A move: the destination, the pattern moved, and Rc. -/
structure FpMoveForm where
  frD : Reg
  source : Dword
  sign : Bool
  rc : Bool

/-- The floating-point moves, by the sign they give the pattern. -/
def fpMoveForm (s : State) : Instr → Option FpMoveForm
  | .fmr frD frB rc => some { frD := frD, source := s.f frB, sign := fpSign (s.f frB), rc := rc }
  | .fneg frD frB rc => some { frD := frD, source := s.f frB, sign := !fpSign (s.f frB), rc := rc }
  | .fabs frD frB rc => some { frD := frD, source := s.f frB, sign := false, rc := rc }
  | .fnabs frD frB rc => some { frD := frD, source := s.f frB, sign := true, rc := rc }
  | _ => none

/-- With Rc = 1, CR1 is FPSCR[0:3] and no other field changes; with Rc = 0, CR is unchanged (00_scope.md R12). -/
def recordedFp (rc : Bool) (s t : State) : Prop :=
  if rc then crField t.cr 1 = bits t.fpscr 0 4 ∧ sameCrBut s t 1 else t.cr = s.cr

end Sys2Proof.Machine
end

