-- ==== Sys2Proof/Safety/FloatForms.lean ====
section
/-! DEFINITION. Floating-point instructions by shape, and the values of patterns as rational numbers, in the terms claims use. -/

namespace Sys2Proof.Machine

open Sys2Proof

/-! Values (43_fp_arith.md R341). -/

/-- A pattern that is neither an infinity nor a NaN. -/
def isFinite (d : Dword) : Bool := fpExp d != 2047

/-- The sign as a factor. -/
def signFactor (neg : Bool) : ℚ := if neg then -1 else 1

/-- The value of a finite pattern. -/
def fpValue (d : Dword) : ℚ :=
  signFactor (fpSign d) *
    (if fpExp d = 0 then (fpFrac d : ℚ) * 2 ^ (-1074 : ℤ)
     else ((2 ^ 52 + fpFrac d : ℕ) : ℚ) * 2 ^ ((fpExp d : ℤ) - 1075))

/-- The value of an exact number that is finite. -/
def Num.value : Num → ℚ
  | .inf _ => 0
  | .fin neg m e => signFactor neg * (m : ℚ) * 2 ^ e

/-- An exact number is finite. -/
def Num.isFin : Num → Bool
  | .inf _ => false
  | .fin _ _ _ => true

/-- `a` is less than `b`, for patterns that are no NaN. -/
def fpLess (a b : Dword) : Prop :=
  if isInf a then fpSign a = true ∧ ¬(isInf b = true ∧ fpSign b = true)
  else if isInf b then fpSign b = false
  else fpValue a < fpValue b

/-- `n` is `x` rounded to an integer in the rounding mode `rn` (43_fp_arith.md R344). -/
def roundsTo (rn : BitVec 2) (x : ℚ) (n : ℤ) : Prop :=
  if rn = 0#2 then 2 * |x - n| ≤ 1 ∧ (2 * |x - n| = 1 → n % 2 = 0)
  else if rn = 1#2 then (if 0 ≤ x then n = ⌊x⌋ else n = ⌈x⌉)
  else if rn = 2#2 then n = ⌈x⌉
  else n = ⌊x⌋

/-! Arithmetic instructions (43_fp_arith.md R356 to R371). -/

/-- An arithmetic instruction: the operation on its operands, the precision, the final negation, frD and Rc. -/
structure FpForm where
  op : FpOp
  p : Precision
  neg : Bool
  frD : Reg
  rc : Bool

/-- The sixteen arithmetic and multiply-add instructions. -/
def fpForm (s : State) : Instr → Option FpForm
  | .fadd frD frA frB rc => some { op := .add (s.f frA) (s.f frB), p := .double, neg := false, frD := frD, rc := rc }
  | .fadds frD frA frB rc => some { op := .add (s.f frA) (s.f frB), p := .single, neg := false, frD := frD, rc := rc }
  | .fsub frD frA frB rc => some { op := .sub (s.f frA) (s.f frB), p := .double, neg := false, frD := frD, rc := rc }
  | .fsubs frD frA frB rc => some { op := .sub (s.f frA) (s.f frB), p := .single, neg := false, frD := frD, rc := rc }
  | .fmul frD frA frC rc => some { op := .mul (s.f frA) (s.f frC), p := .double, neg := false, frD := frD, rc := rc }
  | .fmuls frD frA frC rc => some { op := .mul (s.f frA) (s.f frC), p := .single, neg := false, frD := frD, rc := rc }
  | .fdiv frD frA frB rc => some { op := .div (s.f frA) (s.f frB), p := .double, neg := false, frD := frD, rc := rc }
  | .fdivs frD frA frB rc => some { op := .div (s.f frA) (s.f frB), p := .single, neg := false, frD := frD, rc := rc }
  | .fmadd frD frA frC frB rc =>
    some { op := .madd (s.f frA) (s.f frC) (s.f frB), p := .double, neg := false, frD := frD, rc := rc }
  | .fmadds frD frA frC frB rc =>
    some { op := .madd (s.f frA) (s.f frC) (s.f frB), p := .single, neg := false, frD := frD, rc := rc }
  | .fmsub frD frA frC frB rc =>
    some { op := .msub (s.f frA) (s.f frC) (s.f frB), p := .double, neg := false, frD := frD, rc := rc }
  | .fmsubs frD frA frC frB rc =>
    some { op := .msub (s.f frA) (s.f frC) (s.f frB), p := .single, neg := false, frD := frD, rc := rc }
  | .fnmadd frD frA frC frB rc =>
    some { op := .madd (s.f frA) (s.f frC) (s.f frB), p := .double, neg := true, frD := frD, rc := rc }
  | .fnmadds frD frA frC frB rc =>
    some { op := .madd (s.f frA) (s.f frC) (s.f frB), p := .single, neg := true, frD := frD, rc := rc }
  | .fnmsub frD frA frC frB rc =>
    some { op := .msub (s.f frA) (s.f frC) (s.f frB), p := .double, neg := true, frD := frD, rc := rc }
  | .fnmsubs frD frA frC frB rc =>
    some { op := .msub (s.f frA) (s.f frC) (s.f frB), p := .single, neg := true, frD := frD, rc := rc }
  | _ => none

/-- The rational result of an operation on finite operands. -/
def FpOp.value : FpOp → ℚ
  | .add a b => fpValue a + fpValue b
  | .sub a b => fpValue a - fpValue b
  | .mul a c => fpValue a * fpValue c
  | .div a b => fpValue a / fpValue b
  | .madd a c b => fpValue a * fpValue c + fpValue b
  | .msub a c b => fpValue a * fpValue c - fpValue b

/-- A division by a zero. -/
def FpOp.byZero : FpOp → Bool
  | .div _ b => isZero b
  | _ => false

/-- Whether C, B and A are denormalized; an operand the operation lacks is not. -/
def FpOp.denormals : FpOp → BitVec 3
  | .add a b | .sub a b | .div a b => (0#1 ++ BitVec.ofBool (isDenormal b) ++ BitVec.ofBool (isDenormal a) : BitVec 3)
  | .mul a c => (BitVec.ofBool (isDenormal c) ++ 0#1 ++ BitVec.ofBool (isDenormal a) : BitVec 3)
  | .madd a c b | .msub a c b =>
    (BitVec.ofBool (isDenormal c) ++ BitVec.ofBool (isDenormal b) ++ BitVec.ofBool (isDenormal a) : BitVec 3)

/-- Which operands of a double arithmetic instruction, or of `frsp`, are denormalized, when one is (R353). -/
def denormalForm (s : State) (i : Instr) : Option (BitVec 3) :=
  match i with
  | .frsp _ frB _ => if isDenormal (s.f frB) then some 2#3 else none
  | i =>
    match fpForm s i with
    | some x => if x.p = .double ∧ x.op.denormals ≠ 0 then some x.op.denormals else none
    | none => none

/-- Operands of an arithmetic instruction that it computes with: of a single one, representable in single format; of a double one,
not denormalized (43_fp_arith.md R345, R353). -/
def FpForm.representable (x : FpForm) : Prop :=
  match x.p with
  | .single => ∀ d ∈ x.op.operands, singleOK d = true
  | .double => ∀ d ∈ x.op.operands, isDenormal d = false

/-- Representable operands that are finite, and no division by zero. -/
def FpForm.ordinary (x : FpForm) : Prop :=
  (∀ d ∈ x.op.operands, isFinite d = true) ∧ x.op.byZero = false ∧ x.representable

/-- Infinity over a number is an infinity, a number over infinity a zero. -/
def FpOp.byInfinity : FpOp → Bool
  | .div a b => isFinite a && isInf b
  | _ => false

/-- The sign of a result that is infinite because an operand is, for operands without a NaN and no invalid operation. -/
def FpOp.infinite : FpOp → Option Bool
  | .add a b => if isInf a then some (fpSign a) else if isInf b then some (fpSign b) else none
  | .sub a b => if isInf a then some (fpSign a) else if isInf b then some (!fpSign b) else none
  | .mul a c => if isInf a || isInf c then some (fpSign a != fpSign c) else none
  | .div a b => if isInf a then some (fpSign a != fpSign b) else none
  | .madd a c b => if isInf a || isInf c then some (fpSign a != fpSign c) else if isInf b then some (fpSign b) else none
  | .msub a c b => if isInf a || isInf c then some (fpSign a != fpSign c) else if isInf b then some (!fpSign b) else none

/-- The sign of an exact zero that is the sum of numbers of the signs `p` and `q`: theirs, or - only when rounding toward
-infinity. -/
def sumZeroSign (rn : BitVec 2) (p q : Bool) : Bool := if p = q then p else decide (rn = 3#2)

/-- The sign of a result that is exactly zero. -/
def FpOp.zeroSign (rn : BitVec 2) : FpOp → Bool
  | .add a b => sumZeroSign rn (fpSign a) (fpSign b)
  | .sub a b => sumZeroSign rn (fpSign a) (!fpSign b)
  | .mul a c => fpSign a != fpSign c
  | .div a b => fpSign a != fpSign b
  | .madd a c b => sumZeroSign rn (fpSign a != fpSign c) (fpSign b)
  | .msub a c b => sumZeroSign rn (fpSign a != fpSign c) (!fpSign b)

/-- Infinity times zero. -/
def infinityByZero (a c : Dword) : Bool := (isInf a && isZero c) || (isZero a && isInf c)

/-- The bit of the FPSCR of an invalid operation on operands without a NaN (R347): VXISI 8, VXIDI 9, VXZDZ 10, VXIMZ 11. -/
def FpOp.invalidBit : FpOp → Option Nat
  | .add a b => if isInf a && isInf b && fpSign a != fpSign b then some 8 else none
  | .sub a b => if isInf a && isInf b && fpSign a == fpSign b then some 8 else none
  | .mul a c => if infinityByZero a c then some 11 else none
  | .div a b => if isInf a && isInf b then some 9 else if isZero a && isZero b then some 10 else none
  | .madd a c b =>
    if infinityByZero a c then some 11
    else if (isInf a || isInf c) && isInf b && ((fpSign a != fpSign c) != fpSign b) then some 8 else none
  | .msub a c b =>
    if infinityByZero a c then some 11
    else if (isInf a || isInf c) && isInf b && ((fpSign a != fpSign c) == fpSign b) then some 8 else none

/-- The enable bit of an exception bit of the FPSCR: OE, UE, ZE and XE of OX, UX, ZX and XX, VE of the invalid-operation bits
(10_state.md R40, R41). -/
def enableOf (k : Nat) : Nat := if k = 3 then 25 else if k = 4 then 26 else if k = 5 then 27 else if k = 6 then 28 else 24

/-- One of the exception bits is enabled. -/
def someEnabled (f : Word) (sets : List Nat) : Prop := ∃ k ∈ sets, bit f (enableOf k) = true

/-- The state in which a floating-point instruction that sets these exception bits delivers its results itself, without the assist
exception: no SIE mode, and exceptions ignored or none of the bits enabled, whatever other enables are set (R346). -/
def State.plainFloat (s : State) (sets : List Nat) : Prop :=
  msrFP s.msr = true ∧ s.sie = false ∧ (msrFE s.msr = false ∨ ¬someEnabled s.fpscr sets)

/-- The state in which an enabled condition takes the assist exception (R346, R354). -/
def State.preciseFloat (s : State) : Prop :=
  msrFP s.msr = true ∧ msrFE s.msr = true ∧ s.sie = false ∧ s.inDebug = false

/-- The state in which an instruction that sets these exception bits takes the assist exception: one of them is enabled (R346). -/
def State.assists (s : State) (sets : List Nat) : Prop := s.preciseFloat ∧ someEnabled s.fpscr sets

/-! Rounding a rational number (43_fp_arith.md R344). -/

/-- The magnitude of a rounded number. -/
def Rounded.magnitude (r : Rounded) (p : Precision) : ℚ := (r.sig : ℚ) * 2 ^ (r.exp - p.width + 1)

/-- `r` is the number `z`, which is not 0, rounded to the precision with an unbounded exponent: its magnitude y has exactly the
precision's width and lies less than one unit in the last place (of the binade of z) from |z|, not below that binade; FI tells y is
not |z|, FR that y is greater; y is nearest in mode 0, with ties to even, and lies on the side of |z| that the other modes ask. -/
def Rounds (p : Precision) (rn : BitVec 2) (z : ℚ) (r : Rounded) : Prop :=
  let x := |z|
  let y := r.magnitude p
  ∃ k : ℤ, (2 : ℚ) ^ k ≤ x ∧ x < 2 ^ (k + 1) ∧
    2 ^ (p.width - 1) ≤ r.sig ∧ r.sig < 2 ^ p.width ∧
    2 ^ k ≤ y ∧ |y - x| < 2 ^ (k - p.width + 1) ∧ (r.fi = true ↔ y ≠ x) ∧ (r.fr = true ↔ x < y) ∧
    (rn = 0#2 → 2 * |y - x| ≤ 2 ^ (k - p.width + 1) ∧ (2 * |y - x| = 2 ^ (k - p.width + 1) → r.sig % 2 = 0)) ∧
    (rn = 1#2 → y ≤ x) ∧
    (rn = 2#2 → if z < 0 then y ≤ x else x ≤ y) ∧
    (rn = 3#2 → if z < 0 then x ≤ y else y ≤ x)

/-- An instruction that rounds the number `z`: the precision, the final negation, frD and Rc. -/
structure RoundForm where
  z : ℚ
  p : Precision
  neg : Bool
  frD : Reg
  rc : Bool

/-- The instruction computes the number of the form and rounds it: the arithmetic instructions on ordinary operands, and `frsp` of a
finite operand that is not denormalized. -/
def computes (s : State) (i : Instr) (x : RoundForm) : Prop :=
  (∃ y, fpForm s i = some y ∧ y.ordinary ∧ x = { z := y.op.value, p := y.p, neg := y.neg, frD := y.frD, rc := y.rc }) ∨
  (∃ frB, i = .frsp x.frD frB x.rc ∧ isFinite (s.f frB) = true ∧ isDenormal (s.f frB) = false ∧
    x = { z := fpValue (s.f frB), p := .single, neg := false, frD := x.frD, rc := x.rc })

/-- The sign delivered: that of the number, inverted by the final negation. -/
def RoundForm.sign (x : RoundForm) : Bool := decide (x.z < 0) != x.neg

/-- The smallest normalized magnitude of a precision. -/
def Precision.smallest (p : Precision) : ℚ := 2 ^ p.minExp

/-- `d` is a finite pattern of the value with this sign and this magnitude. -/
def hasValue (d : Dword) (neg : Bool) (magnitude : ℚ) : Prop :=
  isFinite d = true ∧ fpSign d = neg ∧ fpValue d = signFactor neg * magnitude

/-- An overflow without its exception delivers an infinity and not the largest number (R349); `neg` is the sign before the final
negation. -/
def overflowsToInfinity (rn : BitVec 2) (neg : Bool) : Bool :=
  if rn = 0#2 then true else if rn = 1#2 then false else if rn = 2#2 then !neg else neg

/-- The largest number of a precision (R349). -/
def largest (p : Precision) (neg : Bool) : Dword :=
  (BitVec.ofBool neg ++ (match p with | .single => 0x47EFFFFFE0000000#64 | .double => 0x7FEFFFFFFFFFFFFF#64).extractLsb' 0 63 : BitVec 64)

/-- What an overflow without its exception delivers. -/
def overflowValue (x : RoundForm) (rn : BitVec 2) : Dword :=
  if overflowsToInfinity rn (decide (x.z < 0)) then
    (BitVec.ofBool x.sign ++ 0x7FF0000000000000#63 : BitVec 64)
  else largest x.p x.sign

/-! What instructions do to the FPSCR (10_state.md R40 to R42). -/

/-- The FPSCR after an instruction that sets the exception bits `sets`: they are set, FX with them when one was 0, FEX and VX follow,
FR, FI and FPRF are as given (`none`: any value), and no other bit changes. -/
def fpscrBecomes (s t : State) (sets : List Nat) (fr fi : Option Bool) (fprf : Option (BitVec 5)) : Prop :=
  (∀ k, 3 ≤ k → k < 32 → ¬(13 ≤ k ∧ k ≤ 20) → bit t.fpscr k = (bit s.fpscr k || sets.contains k)) ∧
  bit t.fpscr 0 = (bit s.fpscr 0 || sets.any fun k => !bit s.fpscr k) ∧ t.fpscrSummed ∧
  (∀ v, fr = some v → bit t.fpscr 13 = v) ∧ (∀ v, fi = some v → bit t.fpscr 14 = v) ∧
  (∀ v, fprf = some v → bits t.fpscr 15 5 = v)

/-- XX, where the result is inexact. -/
def inexactBit (fi : Bool) : List Nat := if fi then [6] else []

/-- Nothing but frD, FPSCR, CR1 with Rc = 1 and pc changes. -/
def onlyFpResult (frD : Reg) (rc : Bool) (s t : State) : Prop :=
  recordedFp rc s t ∧ sameFprsBut s t [frD] ∧ sameMemory s t ∧
  t = { s with fpr := t.fpr, fpscr := t.fpscr, cr := t.cr, pc := s.pc + 4 }

/-- Nothing but frD, FPSCR, CR1 with Rc = 1, the count of free values and pc changes. -/
def onlyFreeFpResult (frD : Reg) (rc : Bool) (s t : State) : Prop :=
  recordedFp rc s t ∧ sameFprsBut s t [frD] ∧ sameMemory s t ∧
  t = { s with fpr := t.fpr, fpscr := t.fpscr, cr := t.cr, pc := s.pc + 4, freeCount := t.freeCount }

/-- The instruction completes with `v` in frD, FR and FI 0, FPRF of `v`, and the exception bits `sets`. -/
def deliversExactly (i : Instr) (s : State) (frD : Reg) (rc : Bool) (v : Dword) (sets : List Nat) : Prop :=
  ∃ t, exec i s = .next t ∧ t.f frD = v ∧
    fpscrBecomes s t sets (some false) (some false) (some (fprfOf v)) ∧ onlyFpResult frD rc s t

/-- The instruction completes with frD and FPRF as they were, FR and FI 0, and the exception bits `sets`. -/
def deliversNothing (i : Instr) (s : State) (rc : Bool) (sets : List Nat) : Prop :=
  ∃ t, exec i s = .next t ∧ t.fpr = s.fpr ∧
    fpscrBecomes s t sets (some false) (some false) (some (bits s.fpscr 15 5)) ∧ recordedFp rc s t ∧ sameMemory s t ∧
    t = { s with fpscr := t.fpscr, cr := t.cr, pc := s.pc + 4 }

/-- The four cause bits of FPECR, which an instruction in SIE mode writes (10_state.md R57; log 15); FPECR is unchanged else. -/
def causesAre (dnc dnb dna tr : Bool) (s t : State) : Prop :=
  if s.sie then bits t.fpecr 28 4 = crBits dnc dnb dna tr ∧ bits t.fpecr 0 28 = bits s.fpecr 0 28
  else t.fpecr = s.fpecr

/-- The bits of the FPSCR that a rounded result leaves alone: all but FX, FEX, VX, XX, FR, FI, FPRF and bit 20. -/
def fpscrRest : Word := 0x1DF807FF#32

/-- What an arithmetic result does to the FPSCR: FR and FI, FPRF, XX and FX (R344, R351, R355). -/
def fpscrRounded (s t : State) (fr fi : Bool) (v : Dword) : Prop :=
  bit t.fpscr 13 = fr ∧ bit t.fpscr 14 = fi ∧ bits t.fpscr 15 5 = fprfOf v ∧
  bit t.fpscr 6 = (bit s.fpscr 6 || fi) ∧ bit t.fpscr 0 = (bit s.fpscr 0 || (fi && !bit s.fpscr 6)) ∧
  t.fpscr &&& fpscrRest = s.fpscr &&& fpscrRest ∧ t.fpscrSummed

/-- The instructions that need MSR[FP] = 1 (60_exceptions.md R686). -/
def isFloat : Instr → Bool
  | .fadd _ _ _ _ | .fadds _ _ _ _ | .fsub _ _ _ _ | .fsubs _ _ _ _ | .fmul _ _ _ _ | .fmuls _ _ _ _ => true
  | .fdiv _ _ _ _ | .fdivs _ _ _ _ => true
  | .fmadd _ _ _ _ _ | .fmadds _ _ _ _ _ | .fmsub _ _ _ _ _ | .fmsubs _ _ _ _ _ => true
  | .fnmadd _ _ _ _ _ | .fnmadds _ _ _ _ _ | .fnmsub _ _ _ _ _ | .fnmsubs _ _ _ _ _ => true
  | .frsp _ _ _ | .fctiw _ _ _ | .fctiwz _ _ _ | .fcmpu _ _ _ | .fcmpo _ _ _ => true
  | .mffs _ _ | .mcrfs _ _ | .mtfsfi _ _ _ | .mtfsf _ _ _ | .mtfsb0 _ _ | .mtfsb1 _ _ => true
  | .lfs _ _ _ | .lfsu _ _ _ | .lfsx _ _ _ | .lfsux _ _ _ | .lfd _ _ _ | .lfdu _ _ _ | .lfdx _ _ _ | .lfdux _ _ _ => true
  | .stfs _ _ _ | .stfsu _ _ _ | .stfsx _ _ _ | .stfsux _ _ _ => true
  | .stfd _ _ _ | .stfdu _ _ _ | .stfdx _ _ _ | .stfdux _ _ _ | .stfiwx _ _ _ => true
  | .fmr _ _ _ | .fneg _ _ _ | .fabs _ _ _ | .fnabs _ _ _ => true
  | _ => false

/-- Rc of a floating-point instruction. -/
def floatRecords : Instr → Bool
  | .fadd _ _ _ rc | .fadds _ _ _ rc | .fsub _ _ _ rc | .fsubs _ _ _ rc | .fmul _ _ _ rc | .fmuls _ _ _ rc => rc
  | .fdiv _ _ _ rc | .fdivs _ _ _ rc => rc
  | .fmadd _ _ _ _ rc | .fmadds _ _ _ _ rc | .fmsub _ _ _ _ rc | .fmsubs _ _ _ _ rc => rc
  | .fnmadd _ _ _ _ rc | .fnmadds _ _ _ _ rc | .fnmsub _ _ _ _ rc | .fnmsubs _ _ _ _ rc => rc
  | .frsp _ _ rc | .fctiw _ _ rc | .fctiwz _ _ rc => rc
  | .mffs _ rc | .mtfsfi _ _ rc | .mtfsf _ _ rc | .mtfsb0 _ rc | .mtfsb1 _ rc => rc
  | .fmr _ _ rc | .fneg _ _ rc | .fabs _ _ rc | .fnabs _ _ rc => rc
  | _ => false

/-! Moves to the FPSCR (44_fp_convert_compare_fpscr.md R412, R415 to R418). -/

/-- A move to the FPSCR: the value of each bit other than FEX, VX and bit 20. -/
structure FpscrForm where
  bitOf : Nat → Bool
  rc : Bool

/-- The moves to the FPSCR; `mtfsb1` sets FX with an exception bit that was 0. -/
def fpscrForm (s : State) : Instr → Option FpscrForm
  | .mtfsfi crfD imm rc =>
    some { bitOf := fun k => if k / 4 = crfD.toNat then imm.getLsbD (3 - k % 4) else bit s.fpscr k, rc := rc }
  | .mtfsf fm frB rc =>
    some { bitOf := fun k => if fm.getLsbD (7 - k / 4) then dbit (s.f frB) (32 + k) else bit s.fpscr k, rc := rc }
  | .mtfsb0 crbD rc => some { bitOf := fun k => if k = crbD.toNat then false else bit s.fpscr k, rc := rc }
  | .mtfsb1 crbD rc =>
    some
      { bitOf := fun k =>
          if k = crbD.toNat then true
          else if k = 0 then bit s.fpscr 0 || (bit fpExceptionMask crbD.toNat && !bit s.fpscr crbD.toNat)
          else bit s.fpscr k
        rc := rc }
  | _ => none

end Sys2Proof.Machine
end

