-- ==== Sys2Proof/Safety/IntegerForms.lean ====
section
/-! DEFINITION. Integer instructions by shape, in the terms claims use: which registers an instruction reads and writes and what
value the rules give, written over integers and single bits and not over the operations of the meanings. -/

namespace Sys2Proof.Machine

open Sys2Proof

/-! Sums (40_integer_arith.md R241 to R258). -/

/-- A sum of two addends and a carry in. -/
structure SumForm where
  rD : Reg
  a : Word
  b : Word
  cin : Bool
  setsCA : Bool
  oe : Bool
  rc : Bool

/-- The instructions that add or subtract; a difference is the sum of a complement and a carry in. -/
def sumForm (s : State) : Instr → Option SumForm
  | .addi rD rA simm =>
    some { rD := rD, a := s.rA0 rA, b := simm.signExtend 32, cin := false, setsCA := false, oe := false, rc := false }
  | .addis rD rA simm =>
    some { rD := rD, a := s.rA0 rA, b := (simm ++ 0#16 : BitVec 32), cin := false, setsCA := false, oe := false, rc := false }
  | .add rD rA rB oe rc =>
    some { rD := rD, a := s.r rA, b := s.r rB, cin := false, setsCA := false, oe := oe, rc := rc }
  | .addic rD rA simm =>
    some { rD := rD, a := s.r rA, b := simm.signExtend 32, cin := false, setsCA := true, oe := false, rc := false }
  | .addicRc rD rA simm =>
    some { rD := rD, a := s.r rA, b := simm.signExtend 32, cin := false, setsCA := true, oe := false, rc := true }
  | .addc rD rA rB oe rc =>
    some { rD := rD, a := s.r rA, b := s.r rB, cin := false, setsCA := true, oe := oe, rc := rc }
  | .adde rD rA rB oe rc =>
    some { rD := rD, a := s.r rA, b := s.r rB, cin := xerCA s.xer, setsCA := true, oe := oe, rc := rc }
  | .addme rD rA oe rc =>
    some { rD := rD, a := s.r rA, b := BitVec.allOnes 32, cin := xerCA s.xer, setsCA := true, oe := oe, rc := rc }
  | .addze rD rA oe rc =>
    some { rD := rD, a := s.r rA, b := 0, cin := xerCA s.xer, setsCA := true, oe := oe, rc := rc }
  | .subf rD rA rB oe rc =>
    some { rD := rD, a := ~~~(s.r rA), b := s.r rB, cin := true, setsCA := false, oe := oe, rc := rc }
  | .subfc rD rA rB oe rc =>
    some { rD := rD, a := ~~~(s.r rA), b := s.r rB, cin := true, setsCA := true, oe := oe, rc := rc }
  | .subfic rD rA simm =>
    some { rD := rD, a := ~~~(s.r rA), b := simm.signExtend 32, cin := true, setsCA := true, oe := false, rc := false }
  | .subfe rD rA rB oe rc =>
    some { rD := rD, a := ~~~(s.r rA), b := s.r rB, cin := xerCA s.xer, setsCA := true, oe := oe, rc := rc }
  | .subfme rD rA oe rc =>
    some { rD := rD, a := ~~~(s.r rA), b := BitVec.allOnes 32, cin := xerCA s.xer, setsCA := true, oe := oe, rc := rc }
  | .subfze rD rA oe rc =>
    some { rD := rD, a := ~~~(s.r rA), b := 0, cin := xerCA s.xer, setsCA := true, oe := oe, rc := rc }
  | .neg rD rA oe rc =>
    some { rD := rD, a := ~~~(s.r rA), b := 0, cin := true, setsCA := false, oe := oe, rc := rc }
  | _ => none

/-! Products (40_integer_arith.md R262 to R265). -/

/-- A product: the integer, and whether its high or its low word is delivered. -/
structure ProductForm where
  rD : Reg
  product : Int
  high : Bool
  oe : Bool
  rc : Bool

/-- The instructions that multiply. -/
def productForm (s : State) : Instr → Option ProductForm
  | .mulli rD rA simm =>
    some { rD := rD, product := (s.r rA).toInt * simm.toInt, high := false, oe := false, rc := false }
  | .mullw rD rA rB oe rc =>
    some { rD := rD, product := (s.r rA).toInt * (s.r rB).toInt, high := false, oe := oe, rc := rc }
  | .mulhw rD rA rB rc =>
    some { rD := rD, product := (s.r rA).toInt * (s.r rB).toInt, high := true, oe := false, rc := rc }
  | .mulhwu rD rA rB rc =>
    some { rD := rD, product := (s.r rA).toNat * (s.r rB).toNat, high := true, oe := false, rc := rc }
  | _ => none

/-! Quotients (40_integer_arith.md R266, R267). -/

/-- A quotient of two integers; `signed` tells how a word of the result is read. -/
structure QuotientForm where
  rD : Reg
  dividend : Int
  divisor : Int
  signed : Bool
  oe : Bool
  rc : Bool

/-- The instructions that divide. -/
def quotientForm (s : State) : Instr → Option QuotientForm
  | .divw rD rA rB oe rc =>
    some { rD := rD, dividend := (s.r rA).toInt, divisor := (s.r rB).toInt, signed := true, oe := oe, rc := rc }
  | .divwu rD rA rB oe rc =>
    some { rD := rD, dividend := (s.r rA).toNat, divisor := (s.r rB).toNat, signed := false, oe := oe, rc := rc }
  | _ => none

/-- The quotient is undefined: division by zero, or the most negative number by -1 (R266, R267). -/
def QuotientForm.undefined (x : QuotientForm) : Prop :=
  x.divisor = 0 ∨ (x.signed = true ∧ x.dividend = -2 ^ 31 ∧ x.divisor = -1)

/-- A word read as the form reads it. -/
def QuotientForm.read (x : QuotientForm) (v : Word) : Int := if x.signed then v.toInt else v.toNat

/-! Compares (41_integer_compare_logical.md R280 to R285). -/

/-- A comparison of two integers into a CR field. -/
structure CompareForm where
  crfD : BitVec 3
  a : Int
  b : Int

/-- The instructions that compare. -/
def compareForm (s : State) : Instr → Option CompareForm
  | .cmpi crfD _ rA simm => some { crfD := crfD, a := (s.r rA).toInt, b := simm.toInt }
  | .cmp crfD _ rA rB => some { crfD := crfD, a := (s.r rA).toInt, b := (s.r rB).toInt }
  | .cmpli crfD _ rA uimm => some { crfD := crfD, a := (s.r rA).toNat, b := uimm.toNat }
  | .cmpl crfD _ rA rB => some { crfD := crfD, a := (s.r rA).toNat, b := (s.r rB).toNat }
  | _ => none

/-! Logical instructions (41_integer_compare_logical.md R286 to R301). -/

/-- A result given bit by bit, bit 0 the most significant. -/
structure BitForm where
  rA : Reg
  bitOf : Nat → Bool
  rc : Bool

/-- Bit `k` of an immediate in the low half of a word. -/
def lowImm (v : BitVec 16) (k : Nat) : Bool := decide (16 ≤ k) && v.getLsbD (31 - k)
/-- Bit `k` of an immediate in the high half of a word. -/
def highImm (v : BitVec 16) (k : Nat) : Bool := decide (k < 16) && v.getLsbD (15 - k)

/-- The logical instructions. -/
def bitForm (s : State) : Instr → Option BitForm
  | .andiRc rA rS uimm => some { rA := rA, bitOf := fun k => bit (s.r rS) k && lowImm uimm k, rc := true }
  | .andisRc rA rS uimm => some { rA := rA, bitOf := fun k => bit (s.r rS) k && highImm uimm k, rc := true }
  | .ori rA rS uimm => some { rA := rA, bitOf := fun k => bit (s.r rS) k || lowImm uimm k, rc := false }
  | .oris rA rS uimm => some { rA := rA, bitOf := fun k => bit (s.r rS) k || highImm uimm k, rc := false }
  | .xori rA rS uimm => some { rA := rA, bitOf := fun k => bit (s.r rS) k != lowImm uimm k, rc := false }
  | .xoris rA rS uimm => some { rA := rA, bitOf := fun k => bit (s.r rS) k != highImm uimm k, rc := false }
  | .and rA rS rB rc => some { rA := rA, bitOf := fun k => bit (s.r rS) k && bit (s.r rB) k, rc := rc }
  | .or rA rS rB rc => some { rA := rA, bitOf := fun k => bit (s.r rS) k || bit (s.r rB) k, rc := rc }
  | .xor rA rS rB rc => some { rA := rA, bitOf := fun k => bit (s.r rS) k != bit (s.r rB) k, rc := rc }
  | .nand rA rS rB rc => some { rA := rA, bitOf := fun k => !(bit (s.r rS) k && bit (s.r rB) k), rc := rc }
  | .nor rA rS rB rc => some { rA := rA, bitOf := fun k => !(bit (s.r rS) k || bit (s.r rB) k), rc := rc }
  | .eqv rA rS rB rc => some { rA := rA, bitOf := fun k => bit (s.r rS) k == bit (s.r rB) k, rc := rc }
  | .andc rA rS rB rc => some { rA := rA, bitOf := fun k => bit (s.r rS) k && !bit (s.r rB) k, rc := rc }
  | .orc rA rS rB rc => some { rA := rA, bitOf := fun k => bit (s.r rS) k || !bit (s.r rB) k, rc := rc }
  | .extsb rA rS rc => some { rA := rA, bitOf := fun k => bit (s.r rS) (max k 24), rc := rc }
  | .extsh rA rS rc => some { rA := rA, bitOf := fun k => bit (s.r rS) (max k 16), rc := rc }
  | _ => none

/-! Rotates (42_rotate_shift.md R320 to R323). -/

/-- Bit `k` is in MASK(mb, me): from mb to me, past bit 31 to bit 0 when mb > me. -/
def inMask (mb me : BitVec 5) (k : Nat) : Bool :=
  if mb.toNat ≤ me.toNat then decide (mb.toNat ≤ k) && decide (k ≤ me.toNat)
  else decide (mb.toNat ≤ k) || decide (k ≤ me.toNat)

/-- A rotation to the left under a mask; `base` gives the bits outside the mask. -/
structure RotateForm where
  rA : Reg
  source : Word
  amount : Nat
  mb : BitVec 5
  me : BitVec 5
  base : Word
  rc : Bool

/-- The instructions that rotate. -/
def rotateForm (s : State) : Instr → Option RotateForm
  | .rlwinm rA rS sh mb me rc =>
    some { rA := rA, source := s.r rS, amount := sh.toNat, mb := mb, me := me, base := 0, rc := rc }
  | .rlwnm rA rS rB mb me rc =>
    some { rA := rA, source := s.r rS, amount := (s.r rB).toNat % 32, mb := mb, me := me, base := 0, rc := rc }
  | .rlwimi rA rS sh mb me rc =>
    some { rA := rA, source := s.r rS, amount := sh.toNat, mb := mb, me := me, base := s.r rA, rc := rc }
  | _ => none

/-! Shifts (42_rotate_shift.md R326 to R329). -/

/-- The value of a shift and, for the algebraic ones, the carry. -/
structure ShiftForm where
  rA : Reg
  value : Word
  carry : Option Bool
  rc : Bool

/-- One bits are lost at the right of a negative word. -/
def lostOnes (v : Word) (n : Nat) : Bool := decide (v.toInt < 0) && decide (v.toNat % 2 ^ n ≠ 0)

/-- The instructions that shift. -/
def shiftForm (s : State) : Instr → Option ShiftForm
  | .slw rA rS rB rc => some { rA := rA, value := s.r rS <<< ((s.r rB).toNat % 64), carry := none, rc := rc }
  | .srw rA rS rB rc => some { rA := rA, value := s.r rS >>> ((s.r rB).toNat % 64), carry := none, rc := rc }
  | .sraw rA rS rB rc =>
    some { rA := rA, value := (s.r rS).sshiftRight ((s.r rB).toNat % 64)
           carry := some (lostOnes (s.r rS) ((s.r rB).toNat % 64)), rc := rc }
  | .srawi rA rS sh rc =>
    some { rA := rA, value := (s.r rS).sshiftRight sh.toNat, carry := some (lostOnes (s.r rS) sh.toNat), rc := rc }
  | _ => none

end Sys2Proof.Machine
end

