-- ==== Sys2Proof/Certificates/Slice0/Obligations.lean ====
section
/-! DEFINITION. The statements for the provers. Each says which rule of spec/ it formalises; what rests on a choice of the model
names its log entry. -/

open Sys2Proof Sys2Proof.Machine

/-! Encoding. -/

/-- Decoding the word of a well-formed instruction gives the instruction back, for every operand value (30_encoding.md R191 to
R197, R207 to R212). -/
def Obligations.DecodeInvertsEncode : Prop :=
  ∀ i : Instr, i.wellFormed = true → decode (encode i) = .ok i

/-- Words written out from the layouts of 30_encoding.md R191 to R196 decode to the instructions they stand for: fields from the
left as decimal numbers in their widths. -/
def Obligations.DecodeOfWrittenOutWords : Prop :=
  decode (14#6 ++ 3#5 ++ 1#5 ++ 0xFFFE#16 : BitVec 32) = .ok (.addi 3 1 0xFFFE#16) ∧
  decode (31#6 ++ 4#5 ++ 5#5 ++ 6#5 ++ 1#1 ++ 40#9 ++ 1#1 : BitVec 32) = .ok (.subf 4 5 6 true true) ∧
  decode (21#6 ++ 7#5 ++ 8#5 ++ 9#5 ++ 10#5 ++ 11#5 ++ 0#1 : BitVec 32) = .ok (.rlwinm 8 7 9 10 11 false) ∧
  decode (31#6 ++ 3#5 ++ 26#5 ++ 8#5 ++ 339#10 ++ 0#1 : BitVec 32) = .ok (.mfspr 3 282#10) ∧
  decode (63#6 ++ 1#5 ++ 2#5 ++ 3#5 ++ 4#5 ++ 29#5 ++ 1#1 : BitVec 32) = .ok (.fmadd 1 2 4 3 true) ∧
  decode (16#6 ++ 12#5 ++ 2#5 ++ 0x3FFF#14 ++ 0#1 ++ 1#1 : BitVec 32) = .ok (.bc 12 2 0x3FFF#14 false true) ∧
  decode (45#6 ++ 9#5 ++ 10#5 ++ 0x8000#16 : BitVec 32) = .ok (.sthu 9 0x8000#16 10) ∧
  decode (63#6 ++ 0#1 ++ 0xA5#8 ++ 0#1 ++ 7#5 ++ 711#10 ++ 0#1 : BitVec 32) = .ok (.mtfsf 0xA5#8 7 false)

/-- Every word whose primary opcode has no row in the map is rejected, and a word of `sc` without bit 30 and of `stwcx.`
without bit 31 too (30_encoding.md R205, R208). That these two are rejected, and not read as the instruction, is the model's choice:
decision D31, which R204 marks as the spec's own (log 30). -/
def Obligations.UnusedOpcodesAreRejected : Prop :=
  (∀ w : Word, (bits w 0 6).toNat ∈ [0, 1, 2, 4, 5, 6, 9, 22, 30, 56, 57, 58, 60, 61, 62] →
    decode w = .error .unusedPrimary) ∧
  (∀ w : Word, (bits w 0 6).toNat = 17 → bit w 30 = false → decode w = .error .scBit30Clear) ∧
  (∀ w : Word, (bits w 0 6).toNat = 31 → (bits w 21 10).toNat = 150 → bit w 31 = false →
    decode w = .error .stwcxBit31Clear)

/-! The step. -/

/-- When the word at CIA decodes to an instruction and nothing else is to happen, `step` is `exec` of it on the state without the
records of the last step (60_exceptions.md R631, 20_memory.md R145): an exception of class Before leaves the (unused) counters as
they were, and `settle` makes the writes of other bus masters that are left over; where none are, it changes nothing. -/
def Obligations.StepRunsDecodedInstruction : Prop :=
  (∀ (s : State) (w : Word) (i : Instr), s.quiet → s.fetchesWord w → decode w = .ok i →
    (∀ t, exec i s.fresh = .next t → bit t.lctrl2 0 = false → bit t.lctrl2 10 = false →
      step s = .next (if t.excTaken = some .before then { t with countA := 0, countB := 0 } else t).settle) ∧
    (∀ r, exec i s.fresh = .refused r → step s = .refused r)) ∧
  (∀ s : State, s.intrusions = [] → s.settle = s)

/-- A word that is no instruction of the RCPU takes the software emulation exception: SRR0 = CIA, SRR1[0:15] = 0
(60_exceptions.md R690). -/
def Obligations.RejectedWordTakesEmulation : Prop :=
  ∀ (s : State) (w : Word) (e : Reject), s.quiet → s.fetchesWord w → decode w = .error e →
    ∃ t, step s = .next t ∧ enters .softwareEmulation s.pc 0 s t

/-- With MSR[SE] = 1 an instruction other than `rfi`, and with MSR[BE] = 1 a branch, that completes without an exception and without
an L-bus watchpoint is followed by the trace exception in the same step: SRR0 is the next instruction (60_exceptions.md R691). That
the MSR before the instruction decides is decision D52 (log 27), and that SRR1[0:15] is 0 is decision D50 (log 30): the model's
choices. -/
def Obligations.SingleStepTraces : Prop :=
  (∀ (s t u : State) (i : Instr) (iw : Nat → Bool),
    u.inDebug = false → msrSE s.msr = true → i ≠ .rfi → u.excTaken = none →
    bit u.lctrl2 0 = false → bit u.lctrl2 10 = false → u.afterInstr s i iw = t →
      enters .trace u.pc 0 u t) ∧
  (∀ (s t : State) (w : Word) (i : Instr), s.undisturbed → s.noInstrBreakpoint → s.fetchesWord w → decode w = .ok i →
    exec i s.fresh = .next t → t.excTaken = none → t.inDebug = false → t.intrusions = [] →
    bit t.lctrl2 0 = false → bit t.lctrl2 10 = false →
    (msrSE s.msr = true ∧ i ≠ .rfi) ∨ (msrBE s.msr = true ∧ branches i) →
    ∃ u, step s = .next u ∧ enters .trace t.pc 0 t u)

/-- The I-bus breakpoint: before the instruction, when one of its four watchpoints is asserted with a trap enable of ICTRL or of TECR,
and ICTRL[IIFM] is 0, or when a counter of the first or second watchpoint counts down to 0; SRR0 = CIA, and a counter that did not
expire keeps its value. Without one, the instruction runs with its watchpoints counted and, where a match was ignored, IIFM cleared;
one that takes an exception of class Before counts nothing. Breakpoints and counts are masked unless BRKNOMSK or MSR[RI] is set
(61_development_support.md R734, R735, R742 to R746; 60_exceptions.md R697; decisions D58, D60). That a breakpoint adjusts back the
counter that did not expire is DEDUCED (log 27). -/
def Obligations.InstructionBreakpointResult : Prop :=
  ∀ (s : State) (w : Word), s.undisturbed → s.fetchesWord w →
    let countsA := s.counts s.countA 1#2 (s.watchesInstr 0)
    let countsB := s.counts s.countB 1#2 (s.watchesInstr 1)
    let expiresA := countsA ∧ bits s.countA 0 16 = 1#16
    let expiresB := countsB ∧ bits s.countB 0 16 = 1#16
    let breaks := (s.matchesInstr ∧ bit s.ictrl 28 = false) ∨ expiresA ∨ expiresB
    (breaks → ∃ t, step s = .next t ∧ enters .instrBreakpoint s.pc 0 s t ∧
      countedIf expiresA s.countA t.countA ∧ countedIf expiresB s.countB t.countB) ∧
    (¬breaks → ∀ (i : Instr) (m t : State), decode w = .ok i →
      m = { s.fresh with ictrl := m.ictrl, countA := m.countA, countB := m.countB } →
      (s.matchesInstr → m.ictrl = setBit s.ictrl 28 false) → (¬s.matchesInstr → m.ictrl = s.ictrl) →
      countedIf countsA s.countA m.countA → countedIf countsB s.countB m.countB →
      exec i m = .next t → bit t.lctrl2 0 = false → bit t.lctrl2 10 = false → t.intrusions = [] →
      msrSE s.msr = false → msrBE s.msr = false →
      step s = .next (if t.excTaken = some .before then { t with countA := s.countA, countB := s.countB } else t))

/-- The data breakpoint: after an instruction that completed, when a data cycle of it meets the conditions of an L-bus watchpoint with
a trap enable of LCTRL2 or of TECR, or whose counter counts down to 0: SRR0 is the next instruction and BAR the effective address of
the first such cycle. A counter of an L-bus watchpoint counts once for the instruction. Both are masked unless BRKNOMSK or MSR[RI]
is set. Without a breakpoint and without a trace nothing else changes (61_development_support.md R736 to R744, R746;
60_exceptions.md R655, R696; decisions D58, D59). DEDUCED: comparators E and F see the address on the bus and BAR takes the address
before the little-endian modification (log 11), and the data breakpoint takes the place of the trace exception (log 27). -/
def Obligations.DataBreakpointResult : Prop :=
  ∀ (s t : State) (w : Word) (i : Instr), s.undisturbed → s.noInstrBreakpoint → s.fetchesWord w → decode w = .ok i →
    exec i s.fresh = .next t → t.excTaken = none → t.inDebug = false → t.intrusions = [] →
    let watched (x : Nat) (c : BusCycle) : Prop := t.watchesData s.watchesInstr x c
    let breaks (c : BusCycle) : Prop :=
      (watched 0 c ∧ t.breaksData t.countA 0) ∨ (watched 1 c ∧ t.breaksData t.countB 1)
    ∃ u, step s = .next u ∧
      countedIf (t.counts t.countA 2#2 (∃ c ∈ t.lbus, watched 0 c)) t.countA u.countA ∧
      countedIf (t.counts t.countB 2#2 (∃ c ∈ t.lbus, watched 1 c)) t.countB u.countB ∧
      (∀ pre c post, t.lbus = pre ++ c :: post → (∀ d ∈ pre, ¬breaks d) → breaks c →
        enters .dataBreakpoint (s.pc + 4) 0 t u ∧ u.bar = c.ea) ∧
      ((∀ c ∈ t.lbus, ¬breaks c) → msrSE s.msr = false → msrBE s.msr = false →
        u = { t with countA := u.countA, countB := u.countB })

/-! Reset. -/

/-- The state after power-on reset with RESET_IP = 0, where the rules give values (10_state.md R80; 70_reset_and_hazards.md
R803); ME, which reset does not alter, is the model's choice (log 1) and not stated. -/
def Obligations.PowerOnResetValues : Prop :=
  let s := State.reset
  s.pc = 0x100#32 ∧ msrILE s.msr = false ∧ msrEE s.msr = false ∧ msrPR s.msr = false ∧ msrFP s.msr = false ∧
  msrFE s.msr = false ∧ msrSE s.msr = false ∧ msrBE s.msr = false ∧ msrIP s.msr = false ∧ msrRI s.msr = false ∧
  msrLE s.msr = false ∧ s.fpecr = 0 ∧ s.ictrl = 0 ∧ s.lctrl1 = 0 ∧ s.lctrl2 = 0 ∧ s.ecr = 0 ∧ s.der = 0x2002000F#32 ∧
  s.iccst = 0 ∧ bits s.countA 16 16 = 0 ∧ bits s.countB 16 16 = 0 ∧ s.reservation = none ∧ s.checkstop = false ∧
  s.inDebug = false

/-- A reset of any running machine: what it gives a value, and that the registers and memory it does not list keep theirs
(10_state.md R80; 60_exceptions.md R660; 70_reset_and_hazards.md R803, R805). That the burst buffer and the line buffer, of which the
rules say nothing, keep their contents with the arrays is the model's choice (log 22). -/
def Obligations.ResetOfRunningMachine : Prop :=
  ∀ (s : State) (x y : Bool),
    let t := s.doReset x y
    msrME t.msr = msrME s.msr ∧ msrIP t.msr = s.platform.resetIp ∧ t.msr &&& 0xFFFFEFBF#32 = 0 ∧
    t.pc = (if s.platform.resetIp then 0xFFF00100#32 else 0x100#32) ∧
    t.fpecr = 0 ∧ t.ictrl = 0 ∧ t.lctrl1 = 0 ∧ t.lctrl2 = 0 ∧ t.ecr = 0 ∧ t.der = 0x2002000F#32 ∧ t.iccst = 0 ∧
    bits t.countA 16 16 = 0 ∧ bits t.countB 16 16 = 0 ∧ t.reservation = none ∧ t.debugEnabled = x ∧
    t.gpr = s.gpr ∧ t.fpr = s.fpr ∧ t.cr = s.cr ∧ t.fpscr = s.fpscr ∧ t.xer = s.xer ∧ t.lr = s.lr ∧ t.ctr = s.ctr ∧
    t.tb = s.tb ∧ t.dsisr = s.dsisr ∧ t.dar = s.dar ∧ t.dec = s.dec ∧ t.sprg0 = s.sprg0 ∧ t.sprg1 = s.sprg1 ∧
    t.sprg2 = s.sprg2 ∧ t.sprg3 = s.sprg3 ∧ t.icache = s.icache ∧ t.mem = s.mem

/-! The invariant. -/

/-- The state after power-on reset satisfies the invariant. -/
def Obligations.ResetSatisfiesInvariant : Prop := State.reset.inv

/-- Every step keeps the canonical form of memory (the model's form, log 4). -/
def Obligations.StepKeepsMemoryCanonical : Prop :=
  ∀ s t : State, s.memoryCanonical → step s = .next t → t.memoryCanonical

/-- Every step keeps CIA a multiple of 4 (10_state.md R36). -/
def Obligations.StepKeepsPcAligned : Prop :=
  ∀ s t : State, s.pcAligned → step s = .next t → t.pcAligned

/-- Every step keeps the reserved bits of MSR, XER, FPECR, ICCST and of the development-support registers at zero
(10_state.md R31; 62_debug_mode_and_port.md R772 to R781). -/
def Obligations.StepKeepsReservedBitsZero : Prop :=
  ∀ s t : State, s.reservedClear ∧ s.developmentReservedClear → step s = .next t →
    t.reservedClear ∧ t.developmentReservedClear

/-- Every step keeps FEX and VX the functions of the other bits of the FPSCR (10_state.md R41). -/
def Obligations.StepKeepsFpscrSummaries : Prop :=
  ∀ s t : State, s.fpscrSummed → step s = .next t → t.fpscrSummed

/-- Every step keeps the cache sound and debug mode within what is enabled (20_memory.md R168 to R177;
62_debug_mode_and_port.md R750). -/
def Obligations.StepKeepsCacheAndDebugSound : Prop :=
  ∀ s t : State, s.cacheSound ∧ s.debugOnlyEnabled → step s = .next t → t.cacheSound ∧ t.debugOnlyEnabled

/-! Which instructions run. -/

/-- Outside debug mode every instruction but the invalid forms of a conditional branch and of `lswx` gives a next state, in every
state. The invalid forms are refused by name: a z bit of BO set, `bcctr` with BO[2] = 0, `lswx` with rB among the registers loaded,
and with a count of 0 and rD = rA or rD = rB (30_encoding.md R216; 48_branch_cr_system_trap.md R541, R545;
46_load_store_multiple_string.md R484). The model's choices: the refusals are decision D32 (log 18); a single-precision instruction
on operands outside single format, and a single store of a value outside it, run with free values, where decisions D37 and D45 of
the spec refuse them (logs 8 and 9); and the update forms with rA = 0, which the pages call invalid, run, the floating-point ones by
decision D33, which R502 and U34 leave to the model, and the integer ones by D41 (log 14). -/
def Obligations.ValidFormsRunInvalidFormsRefused : Prop :=
  (∀ (i : Instr) (s : State), i.wellFormed = true → s.inDebug = false →
    (∀ rD rA rB, i = .lswx rD rA rB → msrLE s.msr = false →
      (xerBytes s.xer = 0 → rD ≠ rA) ∧ ∀ k, k < (xerBytes s.xer + 3) / 4 → rB ≠ rD + BitVec.ofNat 5 k) →
    ∃ t, exec i s = .next t) ∧
  (∀ (bo bi : BitVec 5) (bd : BitVec 14) (aa lk : Bool) (s : State), validBO bo = false →
    exec (.bc bo bi bd aa lk) s = .refused .invalidBranchOptions ∧
    exec (.bclr bo bi lk) s = .refused .invalidBranchOptions ∧
    (bo.getLsbD 2 = true → exec (.bcctr bo bi lk) s = .refused .invalidBranchOptions)) ∧
  (∀ (bo bi : BitVec 5) (lk : Bool) (s : State), bo.getLsbD 2 = false →
    exec (.bcctr bo bi lk) s = .refused .invalidCountBranch) ∧
  (∀ (rD rA rB : Reg) (s : State), msrLE s.msr = false →
    (xerBytes s.xer = 0 ∧ (rD = rA ∨ rD = rB)) ∨ (∃ k, k < (xerBytes s.xer + 3) / 4 ∧ rB = rD + BitVec.ofNat 5 k) →
    exec (.lswx rD rA rB) s = .refused .invalidLoadString)

/-! Integer instructions. -/

/-- Addition and subtraction: rD, CA, OV and SO, CR0, and nothing else; OV tells that the exact signed sum is no 32-bit number
(40_integer_arith.md R240 to R258). -/
def Obligations.AddSubtractResult : Prop :=
  ∀ (i : Instr) (s : State) (x : SumForm), sumForm s i = some x →
    ∃ t, exec i s = .next t ∧
      t.r x.rD = x.a + x.b + BitVec.ofNat 32 x.cin.toNat ∧
      xerCA t.xer =
        (if x.setsCA then decide (2 ^ 32 ≤ x.a.toNat + x.b.toNat + x.cin.toNat) else xerCA s.xer) ∧
      overflowed x.oe
        (decide (x.a.toInt + x.b.toInt + x.cin.toNat < -2 ^ 31 ∨ 2 ^ 31 ≤ x.a.toInt + x.b.toInt + x.cin.toNat)) s t ∧
      recorded x.rc (t.r x.rD) s t ∧ sameXerRest s t ∧ sameGprsBut s t [x.rD] ∧ sameMemory s t ∧ onlyInteger s t ∧
      t.pc = s.pc + 4

/-- Multiplication: the low or the high word of the exact product, OV when a signed product is no 32-bit number, CR0, and nothing
else (40_integer_arith.md R262 to R265).

Division. With a defined quotient: dividend = quotient * divisor + remainder, the remainder smaller than the divisor and of the
dividend's sign; OV = 0; CR0; nothing else. With an undefined one the instruction completes too: OV = SO = 1 with OE = 1, CR0[SO]
is the new SO with Rc = 1, and nothing changes but rD, CR0 and these bits (R266, R267; the undefined values are free, log 6). -/
def Obligations.MultiplyDivideResult : Prop :=
  (∀ (i : Instr) (s : State) (x : ProductForm), productForm s i = some x →
    ∃ t, exec i s = .next t ∧
      t.r x.rD = BitVec.ofInt 32 (if x.high then x.product / 2 ^ 32 else x.product) ∧
      xerCA t.xer = xerCA s.xer ∧
      overflowed x.oe (decide (x.product < -2 ^ 31 ∨ 2 ^ 31 ≤ x.product)) s t ∧
      recorded x.rc (t.r x.rD) s t ∧ sameXerRest s t ∧ sameGprsBut s t [x.rD] ∧ sameMemory s t ∧ onlyInteger s t ∧
      t.pc = s.pc + 4) ∧
  (∀ (i : Instr) (s : State) (x : QuotientForm), quotientForm s i = some x → ¬x.undefined →
    ∃ t r, exec i s = .next t ∧
      x.dividend = x.read (t.r x.rD) * x.divisor + r ∧ |r| < |x.divisor| ∧ 0 ≤ r * x.dividend ∧
      xerCA t.xer = xerCA s.xer ∧ overflowed x.oe false s t ∧
      recorded x.rc (t.r x.rD) s t ∧ sameXerRest s t ∧ sameGprsBut s t [x.rD] ∧ sameMemory s t ∧ onlyInteger s t ∧
      t.pc = s.pc + 4) ∧
  (∀ (i : Instr) (s : State) (x : QuotientForm), quotientForm s i = some x → x.undefined →
    ∃ t, exec i s = .next t ∧
      xerCA t.xer = xerCA s.xer ∧ overflowed x.oe true s t ∧
      (if x.rc then bit t.cr 3 = xerSO t.xer ∧ sameCrBut s t 0 else t.cr = s.cr) ∧
      sameXerRest s t ∧ sameGprsBut s t [x.rD] ∧ sameMemory s t ∧
      t = { s with gpr := t.gpr, cr := t.cr, xer := t.xer, pc := s.pc + 4, freeCount := t.freeCount })

/-- A compare writes LT, GT, EQ and the SO bit into its field, and nothing else. A logical instruction writes rA bit by bit, CR0
where it records, and nothing else; `cntlzw` counts the zero bits before the first one (41_integer_compare_logical.md R280 to
R302). -/
def Obligations.CompareLogicalResult : Prop :=
  (∀ (i : Instr) (s : State) (x : CompareForm), compareForm s i = some x →
    ∃ t, exec i s = .next t ∧
      crField t.cr x.crfD = crBits (decide (x.a < x.b)) (decide (x.b < x.a)) (decide (x.a = x.b)) (xerSO s.xer) ∧
      sameCrBut s t x.crfD ∧ sameMemory s t ∧ t = { s with cr := t.cr, pc := s.pc + 4 }) ∧
  (∀ (i : Instr) (s : State) (x : BitForm), bitForm s i = some x →
    ∃ t, exec i s = .next t ∧
      (∀ k, k < 32 → bit (t.r x.rA) k = x.bitOf k) ∧
      recorded x.rc (t.r x.rA) s t ∧ sameGprsBut s t [x.rA] ∧ sameMemory s t ∧
      t = { s with gpr := t.gpr, cr := t.cr, pc := s.pc + 4 }) ∧
  (∀ (rA rS : Reg) (rc : Bool) (s : State),
    ∃ t, exec (.cntlzw rA rS rc) s = .next t ∧
      (t.r rA).toNat ≤ 32 ∧ (∀ k, k < (t.r rA).toNat → bit (s.r rS) k = false) ∧
      ((t.r rA).toNat < 32 → bit (s.r rS) (t.r rA).toNat = true) ∧
      recorded rc (t.r rA) s t ∧ sameGprsBut s t [rA] ∧ sameMemory s t ∧
      t = { s with gpr := t.gpr, cr := t.cr, pc := s.pc + 4 })

/-- A rotation: bit k of rA is bit k + n of rS (modulo 32) where the mask has a one, else zero or, for `rlwimi`, as it was. A shift by
0 to 63 places; the algebraic ones set CA when a one is lost from a negative word (42_rotate_shift.md R320 to R323, R326 to
R329). -/
def Obligations.RotateShiftResult : Prop :=
  (∀ (i : Instr) (s : State) (x : RotateForm), rotateForm s i = some x →
    ∃ t, exec i s = .next t ∧
      (∀ k, k < 32 → bit (t.r x.rA) k = if inMask x.mb x.me k then bit x.source ((k + x.amount) % 32) else bit x.base k) ∧
      recorded x.rc (t.r x.rA) s t ∧ sameGprsBut s t [x.rA] ∧ sameMemory s t ∧
      t = { s with gpr := t.gpr, cr := t.cr, pc := s.pc + 4 }) ∧
  (∀ (i : Instr) (s : State) (x : ShiftForm), shiftForm s i = some x →
    ∃ t, exec i s = .next t ∧
      t.r x.rA = x.value ∧ xerCA t.xer = x.carry.getD (xerCA s.xer) ∧
      t.xer &&& 0xDFFFFFFF#32 = s.xer &&& 0xDFFFFFFF#32 ∧
      recorded x.rc (t.r x.rA) s t ∧ sameGprsBut s t [x.rA] ∧ sameMemory s t ∧ onlyInteger s t ∧ t.pc = s.pc + 4)

/-! Loads and stores. -/

/-- A load delivers the bytes at the address on the bus; an update form writes EA to rA, unless rA = rD, where the loaded value
stays (45_load_store_int.md R431 to R448, R464, R465). For update forms decisions D41 (rA = 0: base 0, EA to GPR0) and D42 (rA = rD)
of the spec are followed (log 14). -/
def Obligations.LoadResult : Prop :=
  ∀ (i : Instr) (s : State) (x : LoadForm), loadForm s i = some x → s.accessible .load x.ea x.size →
    ∃ t, exec i s = .next t ∧
      t.r x.rD = x.value (s.busAddress x.ea x.size) ∧
      (∀ rA, x.update = some rA → rA ≠ x.rD → t.r rA = x.ea) ∧
      sameGprsBut s t (x.rD :: x.update.toList) ∧ sameMemory s t ∧ onlyLoad s t ∧ t.pc = s.pc + 4

/-- A store writes its bytes from the address on the bus upward and no other byte; an update form writes EA to rA
(45_load_store_int.md R431, R451 to R462, R466, R467). For update forms with rA = 0 decision D41 of the spec is followed (log 14). -/
def Obligations.StoreResult : Prop :=
  ∀ (i : Instr) (s : State) (x : StoreForm), storeForm s i = some x → s.memoryCanonical →
    s.accessible .store x.ea x.bytes.length →
    ∃ t, exec i s = .next t ∧
      (∀ k, k < x.bytes.length →
        some (t.byteAt (s.busAddress x.ea x.bytes.length + BitVec.ofNat 32 k)) = x.bytes[k]?) ∧
      sameMemoryBut s t (s.busAddress x.ea x.bytes.length) x.bytes.length ∧
      (∀ rA, x.update = some rA → t.r rA = x.ea) ∧ sameGprsBut s t x.update.toList ∧
      onlyStore s t ∧ t.pc = s.pc + 4

/-- `lmw` and the load strings fill their registers from ascending bytes, the last one with zeros on the right; `stmw` and the store
strings write the bytes of their registers in ascending order and no other byte (46_load_store_multiple_string.md R481 to R486).
With a count of 0 `lswx` leaves rD any value (a free value, log 6) and changes no other register (R484). -/
def Obligations.MultipleAndStringResult : Prop :=
  (∀ (i : Instr) (s : State) (x : TransferForm), transferLoad s i = some x → s.transferable .load x →
    ∃ t, exec i s = .next t ∧
      (∀ k, k < (x.count + 3) / 4 →
        t.r (x.first + BitVec.ofNat 5 k) =
          (s.transferByte x k 0 ++ s.transferByte x k 1 ++ s.transferByte x k 2 ++ s.transferByte x k 3 : BitVec 32)) ∧
      (∀ n : Reg, (∀ k, k < (x.count + 3) / 4 → n ≠ x.first + BitVec.ofNat 5 k) → t.r n = s.r n) ∧
      sameMemory s t ∧ onlyLoad s t ∧ t.pc = s.pc + 4) ∧
  (∀ (i : Instr) (s : State) (x : TransferForm), transferStore s i = some x → s.memoryCanonical →
    s.transferable .store x →
    ∃ t, exec i s = .next t ∧
      (∀ j, j < x.count →
        t.byteAt (x.ea + BitVec.ofNat 32 j) = byteOf (s.r (x.first + BitVec.ofNat 5 (j / 4))) (j % 4)) ∧
      sameMemoryBut s t x.ea x.count ∧ sameGprsBut s t [] ∧ onlyStore s t ∧ t.pc = s.pc + 4) ∧
  (∀ (rD rA rB : Reg) (s : State), msrLE s.msr = false → xerBytes s.xer = 0 → rD ≠ rA → rD ≠ rB →
    ∃ t, exec (.lswx rD rA rB) s = .next t ∧ sameGprsBut s t [rD] ∧ sameMemory s t ∧
      t = { s with gpr := t.gpr, pc := s.pc + 4, freeCount := t.freeCount })

/-- `lmw`, `stmw` and the string instructions take the alignment exception in little-endian mode, whatever the address and the
count (20_memory.md R141); `lmw` and `stmw` also in big-endian mode when the address is no multiple of 4, and `lwarx` and `stwcx.`
then in either byte order; the other integer loads and stores in little-endian mode when the operand is not aligned; floating-point
loads and stores when it is not on a word boundary, in little-endian mode on its own boundary. Nothing is loaded, stored or updated
(20_memory.md R136, R140, R165; 47_load_store_fp_move.md R501; 60_exceptions.md R672). DAR is the effective address and DSISR tells
the instruction; for `lmw`, `lswi` and `lswx` its last field names rA or a register that is not loaded (60_exceptions.md R673). The
spec's own decisions, which the model follows (log 30): D25 for a count of 0, D24 for the address in DAR before the little-endian
modification, D53 for DSISR[14]; and D43 (log 16): a misaligned multiple or string transfers nothing. -/
def Obligations.MisalignedAccessTakesAlignment : Prop :=
  (∀ (i : Instr) (s : State) (ea : Word), transferEa s i = some ea → s.inDebug = false →
    (msrLE s.msr = true ∨ (ea.toNat % 4 ≠ 0 ∧ ∃ r d rA, i = .lmw r d rA ∨ i = .stmw r d rA)) →
    ∃ t, exec i s = .next t ∧ enters .alignment s.pc 0 s t ∧ t.dar = ea ∧ dsisrTells (encode i) t.dsisr ∧
      dsisrHarmless s i t.dsisr) ∧
  (∀ (i : Instr) (r rA rB : Reg) (s : State), i = .lwarx r rA rB ∨ i = .stwcx r rA rB → s.inDebug = false →
    (s.eaX rA rB).toNat % 4 ≠ 0 →
    ∃ t, exec i s = .next t ∧ enters .alignment s.pc 0 s t ∧ t.dar = s.eaX rA rB ∧ dsisrTells (encode i) t.dsisr) ∧
  (∀ (i : Instr) (s : State) (x : LoadForm), loadForm s i = some x → s.inDebug = false → msrLE s.msr = true →
    x.ea.toNat % x.size ≠ 0 →
    ∃ t, exec i s = .next t ∧ enters .alignment s.pc 0 s t ∧ t.dar = x.ea ∧ dsisrTells (encode i) t.dsisr) ∧
  (∀ (i : Instr) (s : State) (x : StoreForm), storeForm s i = some x → s.inDebug = false → msrLE s.msr = true →
    x.ea.toNat % x.bytes.length ≠ 0 →
    ∃ t, exec i s = .next t ∧ enters .alignment s.pc 0 s t ∧ t.dar = x.ea ∧ dsisrTells (encode i) t.dsisr) ∧
  (∀ (i : Instr) (s : State) (ea : Word) (n : Nat), fpAccess s i = some (ea, n) → s.inDebug = false →
    msrFP s.msr = true → ea.toNat % (if msrLE s.msr then n else 4) ≠ 0 →
    ∃ t, exec i s = .next t ∧ enters .alignment s.pc 0 s t ∧ t.dar = ea ∧ dsisrTells (encode i) t.dsisr)

/-- A bus error on the first failing cycle of an integer load or store of one operand, or on a fetch, outside debug mode (the
floating-point, multiple, string and reserving forms are not in its range): with MSR[ME] = 1 the machine
check exception; with ME = 0, debug mode under ECR[CHSTP] where it is enabled with DER[CHSTPE], else checkstop, which sets
ECR[CHSTP] and changes nothing else. No register is loaded or updated; the bytes of a store before the failing cycle are stored, and
those of that cycle hold the old or the new value. On a data access DAR is the address of the failing cycle and DSISR tells the
instruction, its rA field included; a fetch sets SRR1[1] and leaves both (60_exceptions.md R640, R664, R665, R673;
45_load_store_int.md R432; 20_memory.md R149). That checkstop changes ECR[CHSTP] alone is DEDUCED (log 28; R665 marks it
derived). DSISR rests on decision D57 (log 17), the bytes before the failing cycle on D43 (log 16), and which cycle fails first, of
a misaligned operand, on D59 (log 23). Decisions D24 (DAR is the address before the little-endian modification), D53 (DSISR[14] is 0)
and D54 (ECR[MCE] alone for a data error) are followed (log 30). -/
def Obligations.BusErrorResult : Prop :=
  (∀ (i : Instr) (s : State) (x : LoadForm) (c : Cycle), loadForm s i = some x → s.inDebug = false →
    s.intrusions = [] → s.leMisaligned x.ea x.size = false → s.firstError .load (s.operandCycles x.ea x.size) c →
    ∃ t, exec i s = .next t ∧ machineChecks 0 s t ∧ sameMemory s t ∧
      (checks s → t.dar = c.ea ∧ dsisrTells (encode i) t.dsisr ∧ bits t.dsisr 27 5 = bits (encode i) 11 5)) ∧
  (∀ (i : Instr) (s : State) (x : StoreForm) (c : Cycle), storeForm s i = some x → s.memoryCanonical → s.inDebug = false →
    s.intrusions = [] → s.leMisaligned x.ea x.bytes.length = false →
    s.firstError .store (s.operandCycles x.ea x.bytes.length) c →
    let a := s.busAddress x.ea x.bytes.length
    let d := (c.addr - a).toNat
    ∃ t, exec i s = .next t ∧ machineChecks 0 s t ∧
      (checks s → t.dar = c.ea ∧ dsisrTells (encode i) t.dsisr ∧ bits t.dsisr 27 5 = bits (encode i) 11 5) ∧
      (∀ k, k < d → some (t.byteAt (a + BitVec.ofNat 32 k)) = x.bytes[k]?) ∧
      (∀ k, d ≤ k → k < d + c.size →
        t.byteAt (a + BitVec.ofNat 32 k) = s.byteAt (a + BitVec.ofNat 32 k) ∨
        some (t.byteAt (a + BitVec.ofNat 32 k)) = x.bytes[k]?) ∧
      (∀ k, d + c.size ≤ k → k < x.bytes.length →
        t.byteAt (a + BitVec.ofNat 32 k) = s.byteAt (a + BitVec.ofNat 32 k)) ∧
      sameMemoryBut s t a x.bytes.length) ∧
  (∀ s : State, s.undisturbed → s.cacheOn = false → s.busError .fetch (fetchAddr s.msr s.pc) 4 = true →
    ∃ t, step s = .next t ∧ machineChecks 0x4000 s t ∧ sameMemory s t ∧ t.dar = s.dar ∧ t.dsisr = s.dsisr)

/-! Floating-point loads, stores and moves. -/

/-- A single load delivers the double pattern of the word, and of a denormalized single takes the floating-point assist exception; a
double load delivers the eight bytes at EA (47_load_store_fp_move.md R501 to R511; 20_memory.md R134, R139; 60_exceptions.md
R692). The decisions D33, for update forms with rA = 0 (log 14), D44, for the assist of a denormalized single, D35, that the assist
exception leaves every register, and D50, that its SRR1[0:15] is 0 (log 30), are followed. -/
def Obligations.FpLoadResult : Prop :=
  (∀ (i : Instr) (s : State) (x : FpAccessForm), fpLoadSingle s i = some x → s.fpAccessible .load x.ea 4 →
    ¬(singleExp (s.wordAt (s.busAddress x.ea 4)) = 0 ∧ singleFrac (s.wordAt (s.busAddress x.ea 4)) ≠ 0) →
    ∃ t, exec i s = .next t ∧ doubleOfSingle (t.f x.fr) (s.wordAt (s.busAddress x.ea 4)) ∧
      (∀ rA, x.update = some rA → t.r rA = x.ea) ∧ sameGprsBut s t x.update.toList ∧ sameFprsBut s t [x.fr] ∧
      sameMemory s t ∧ t = { s with gpr := t.gpr, fpr := t.fpr, pc := s.pc + 4, lbus := t.lbus }) ∧
  (∀ (i : Instr) (s : State) (x : FpAccessForm), fpLoadSingle s i = some x → s.fpAccessible .load x.ea 4 →
    s.inDebug = false → singleExp (s.wordAt (s.busAddress x.ea 4)) = 0 →
    singleFrac (s.wordAt (s.busAddress x.ea 4)) ≠ 0 → raises .fpAssist 0 i s) ∧
  (∀ (i : Instr) (s : State) (x : FpAccessForm), fpLoadDouble s i = some x → s.fpAccessible .load x.ea 8 →
    ∃ t, exec i s = .next t ∧ t.f x.fr = (s.wordAt x.ea ++ s.wordAt (x.ea + 4) : BitVec 64) ∧
      (∀ rA, x.update = some rA → t.r rA = x.ea) ∧ sameGprsBut s t x.update.toList ∧ sameFprsBut s t [x.fr] ∧
      sameMemory s t ∧ t = { s with gpr := t.gpr, fpr := t.fpr, pc := s.pc + 4, lbus := t.lbus })

/-- A double store writes the eight bytes of frS at EA, `stfiwx` the low four of any register (decision D46, log 30); a single store
writes the single word of which frS holds the double pattern; of an exponent of 0, denormalized doubles among them, a signed zero; of
an infinity or a NaN, bits 0:1 and 5:34 whatever the bits below hold; with an exponent of 1 to 896 it takes the floating-point
assist exception before any effect; and a value outside single format stores any word, which is the model's choice against the
spec's decision D45 (log 9) (47_load_store_fp_move.md R512 to R521). For update forms with rA = 0 decision D33 is followed
(log 14), for the assist exception, taken whatever the mode and the enables are, D44, D35 and D50 (log 30). -/
def Obligations.FpStoreResult : Prop :=
  (∀ (i : Instr) (s : State) (x : FpAccessForm), fpStoreDouble s i = some x → s.memoryCanonical →
    s.fpAccessible .store x.ea 8 →
    ∃ t, exec i s = .next t ∧
      (∀ k, k < 8 → some (t.byteAt (x.ea + BitVec.ofNat 32 k)) = (doubleOperand (s.f x.fr))[k]?) ∧
      sameMemoryBut s t x.ea 8 ∧ (∀ rA, x.update = some rA → t.r rA = x.ea) ∧ sameGprsBut s t x.update.toList ∧
      onlyStore s t ∧ t.pc = s.pc + 4) ∧
  (∀ (frS rA rB : Reg) (s : State), s.memoryCanonical → s.fpAccessible .store (s.eaX rA rB) 4 →
    ∃ t, exec (.stfiwx frS rA rB) s = .next t ∧
      t.wordAt (s.busAddress (s.eaX rA rB) 4) = (s.f frS).extractLsb' 0 32 ∧
      sameMemoryBut s t (s.busAddress (s.eaX rA rB) 4) 4 ∧ sameGprsBut s t [] ∧ onlyStore s t ∧ t.pc = s.pc + 4) ∧
  (∀ (i : Instr) (s : State) (x : FpAccessForm) (w : Word), fpStoreSingle s i = some x → s.memoryCanonical →
    s.fpAccessible .store x.ea 4 → doubleOfSingle (s.f x.fr) w → ¬(singleExp w = 0 ∧ singleFrac w ≠ 0) →
    ∃ t, exec i s = .next t ∧
      t.wordAt (s.busAddress x.ea 4) = w ∧ sameMemoryBut s t (s.busAddress x.ea 4) 4 ∧
      (∀ rA, x.update = some rA → t.r rA = x.ea) ∧ sameGprsBut s t x.update.toList ∧ onlyStore s t ∧ t.pc = s.pc + 4) ∧
  (∀ (i : Instr) (s : State) (x : FpAccessForm), fpStoreSingle s i = some x → s.memoryCanonical →
    s.fpAccessible .store x.ea 4 → ¬(1 ≤ fpExp (s.f x.fr) ∧ fpExp (s.f x.fr) ≤ 896) →
    ∃ t, exec i s = .next t ∧
      (fpExp (s.f x.fr) = 0 → t.wordAt (s.busAddress x.ea 4) = (BitVec.ofBool (fpSign (s.f x.fr)) ++ 0#31 : BitVec 32)) ∧
      (fpExp (s.f x.fr) = 2047 →
        t.wordAt (s.busAddress x.ea 4) = ((s.f x.fr).extractLsb' 62 2 ++ (s.f x.fr).extractLsb' 29 30 : BitVec 32)) ∧
      sameMemoryBut s t (s.busAddress x.ea 4) 4 ∧ (∀ rA, x.update = some rA → t.r rA = x.ea) ∧
      sameGprsBut s t x.update.toList ∧
      t = { s with
        gpr := t.gpr, mem := t.mem, stale := t.stale, pc := s.pc + 4, lbus := t.lbus, freeCount := t.freeCount }) ∧
  (∀ (i : Instr) (s : State) (x : FpAccessForm), fpStoreSingle s i = some x → s.fpAccessible .store x.ea 4 →
    s.inDebug = false → 1 ≤ fpExp (s.f x.fr) → fpExp (s.f x.fr) ≤ 896 → raises .fpAssist 0 i s)

/-- A move copies the pattern with its sign kept, inverted, cleared or set; the FPSCR is unchanged and CR1 copies its first four
bits with Rc = 1; with MSR[FP] = 0 it takes the floating-point unavailable exception; and the words that mean the four, whatever
their reserved bits hold (47_load_store_fp_move.md R524 to R528). What FPECR tells in SIE mode is no part of these rules and is left to
`FloatRecordAndDenormalOperand`. -/
def Obligations.FpMoveResult : Prop :=
  (∀ (i : Instr) (s : State) (x : FpMoveForm), fpMoveForm s i = some x →
    (msrFP s.msr = true →
      ∃ t, exec i s = .next t ∧
        t.f x.frD = (BitVec.ofBool x.sign ++ x.source.extractLsb' 0 63 : BitVec 64) ∧
        recordedFp x.rc s t ∧ sameFprsBut s t [x.frD] ∧ sameMemory s t ∧
        (s.sie = false → t.fpecr = s.fpecr) ∧
        t = { s with fpr := t.fpr, fpecr := t.fpecr, cr := t.cr, pc := s.pc + 4 }) ∧
    (msrFP s.msr = false → s.inDebug = false → raises .fpUnavailable 0 i s)) ∧
  (∀ w : Word, bits w 0 6 = 63#6 →
    (bits w 21 10 = 72#10 → decode w = .ok (.fmr (bits w 6 5) (bits w 16 5) (bit w 31))) ∧
    (bits w 21 10 = 40#10 → decode w = .ok (.fneg (bits w 6 5) (bits w 16 5) (bit w 31))) ∧
    (bits w 21 10 = 264#10 → decode w = .ok (.fabs (bits w 6 5) (bits w 16 5) (bit w 31))) ∧
    (bits w 21 10 = 136#10 → decode w = .ok (.fnabs (bits w 6 5) (bits w 16 5) (bit w 31))))

/-! Floating-point arithmetic. -/

/-- Every floating-point instruction with MSR[FP] = 0 takes the floating-point unavailable exception before any other effect
(60_exceptions.md R686). -/
def Obligations.FloatUnavailable : Prop :=
  ∀ (i : Instr) (s : State), isFloat i = true → msrFP s.msr = false → s.inDebug = false → raises .fpUnavailable 0 i s

/-- The exact sum, difference and product of finite operands, as rational numbers, and the quotient: exact when its last bit is 0,
else between the neighbours of an odd significand of 55 bits or more (for a divisor of at most 53 bits, as every pattern's is), which
fixes every rounding (43_fp_arith.md R341, R343). -/
def Obligations.ExactArithmetic : Prop :=
  (∀ d : Dword, isFinite d = true → (numOf d).isFin = true ∧ (numOf d).value = fpValue d) ∧
  (∀ (rn : BitVec 2) (x y : Sys2Proof.Machine.Num), x.isFin = true → y.isFin = true →
    (x.add rn y).isFin = true ∧ (x.add rn y).value = x.value + y.value ∧
    (x.mul y).isFin = true ∧ (x.mul y).value = x.value * y.value ∧
    x.neg.isFin = true ∧ x.neg.value = -x.value) ∧
  (∀ (n n' : Bool) (m m' : Nat) (e e' : Int), m ≠ 0 → m' ≠ 0 →
    ∃ (a : Nat) (k : Int), Sys2Proof.Machine.Num.div (.fin n m e) (.fin n' m' e') = .fin (n != n') a k ∧
      (a % 2 = 0 → (a : ℚ) * 2 ^ k = (m : ℚ) * 2 ^ e / ((m' : ℚ) * 2 ^ e')) ∧
      (a % 2 = 1 → (m' < 2 ^ 53 → 2 ^ 54 ≤ a) ∧ ((a - 1 : ℕ) : ℚ) * 2 ^ k < (m : ℚ) * 2 ^ e / ((m' : ℚ) * 2 ^ e') ∧
        (m : ℚ) * 2 ^ e / ((m' : ℚ) * 2 ^ e') < ((a + 1 : ℕ) : ℚ) * 2 ^ k))

/-- Rounding a magnitude x = m * 2^e: the result y has exactly the precision's width, lies less than one unit in the last place
(the unit of the binade of x) from x and not below that binade, is inexact exactly when FI says so, is nearest to x in mode 0 with
ties to even, is not larger than x in mode 1, and lies on the side of x that modes 2 and 3 ask (43_fp_arith.md R344). -/
def Obligations.RoundingIsCorrect : Prop :=
  ∀ (p : Precision) (rn : BitVec 2) (neg : Bool) (m : Nat) (e : Int), m ≠ 0 →
    let r := roundTo p rn neg m e
    let x : ℚ := (m : ℚ) * 2 ^ e
    let y : ℚ := (r.sig : ℚ) * 2 ^ (r.exp - p.width + 1)
    let ulp : ℚ := 2 ^ (exponentOf m e - p.width + 1)
    2 ^ (p.width - 1) ≤ r.sig ∧ r.sig < 2 ^ p.width ∧
    2 ^ exponentOf m e ≤ y ∧ |y - x| < ulp ∧ (r.fi = true ↔ y ≠ x) ∧ (r.fr = true ↔ x < y) ∧
    (rn = 0#2 → 2 * |y - x| ≤ ulp ∧ (2 * |y - x| = ulp → r.sig % 2 = 0)) ∧
    (rn = 1#2 → y ≤ x) ∧
    (rn = 2#2 → if neg then y ≤ x else x ≤ y) ∧
    (rn = 3#2 → if neg then x ≤ y else y ≤ x)

/-- An arithmetic instruction on ordinary operands (finite, representable, no division by zero), or `frsp`, whose number z lies at or
above the smallest normalized magnitude: there is z rounded, and when it lies in the range of the precision the instruction delivers
it with its final sign, sets FR, FI, FPRF, XX and FX, with Rc = 1 CR1, and changes nothing else; an enabled inexact exception takes
the floating-point assist exception in precise mode, any other enable leaves the result as it is (43_fp_arith.md R344, R346, R351,
R355 to R371; 44_fp_convert_compare_fpscr.md R391). For the assist exception decisions D35 and D50 are followed (log 30). -/
def Obligations.FpArithmeticRounds : Prop :=
  ∀ (i : Instr) (s : State) (x : RoundForm), computes s i x → x.p.smallest ≤ |x.z| →
    ∃ r, Rounds x.p (fpRN s.fpscr) x.z r ∧ (r.exp ≤ x.p.maxExp →
      (s.plainFloat (inexactBit r.fi) → ∃ t, exec i s = .next t ∧ hasValue (t.f x.frD) x.sign (r.magnitude x.p) ∧
        fpscrBecomes s t (inexactBit r.fi) (some r.fr) (some r.fi) (some (fprfOf (t.f x.frD))) ∧
        onlyFpResult x.frD x.rc s t) ∧
      (s.assists (inexactBit r.fi) → raises .fpAssist 0 i s))

/-- An arithmetic result that is exactly zero or infinite: an infinite operand gives an infinity, a number divided by an infinity
a zero, and an exact zero has the sign of its parts or, when they differ, + but when rounding toward -infinity; FR and FI are 0,
FPRF is the class, no exception bit is set, and nothing else changes, whatever the enables and the mode of exceptions are
(43_fp_arith.md R341, R343, R346). -/
def Obligations.FpZeroAndInfinityResult : Prop :=
  ∀ (i : Instr) (s : State) (x : FpForm), fpForm s i = some x → s.plainFloat [] → x.representable →
    (∀ d ∈ x.op.operands, isNaN d = false) → x.op.invalidBit = none →
    (∀ sign, x.op.infinite = some sign →
      deliversExactly i s x.frD x.rc (BitVec.ofBool (sign != x.neg) ++ 0x7FF0000000000000#63 : BitVec 64) []) ∧
    (x.ordinary → x.op.value = 0 →
      deliversExactly i s x.frD x.rc (BitVec.ofBool (x.op.zeroSign (fpRN s.fpscr) != x.neg) ++ 0#63 : BitVec 64) []) ∧
    (x.op.byInfinity = true →
      deliversExactly i s x.frD x.rc (BitVec.ofBool (x.op.zeroSign (fpRN s.fpscr) != x.neg) ++ 0#63 : BitVec 64) [])

/-- A result out of the range of the precision (arithmetic on ordinary operands, and `frsp`). Overflow: without OE the infinity or
the largest number that the mode and the sign choose, with OX, XX, FI, and FR any value (a free value, log 6); with OE the
rounded number with its exponent lowered, and OX. Tiny: with UE the rounded number with its exponent raised, and UX; without it a
signed zero and UX in non-IEEE mode (FR and FI any value), else the floating-point assist exception, in SIE mode the raised number
with FPECR[TR] and no exception bit. An enabled exception takes the assist exception in precise mode (43_fp_arith.md R349, R350,
R352, R354; C61 and D36 for the open bits, D39 for XX beside UX, D35 and D50 for the assist exception, log 30). -/
def Obligations.FpRangeResult : Prop :=
  (∀ (i : Instr) (s : State) (x : RoundForm), computes s i x → x.z ≠ 0 →
    ∃ r, Rounds x.p (fpRN s.fpscr) x.z r ∧ (x.p.maxExp < r.exp →
      (s.plainFloat [3, 6] → bit s.fpscr 25 = false → ∃ t, exec i s = .next t ∧ t.f x.frD = overflowValue x (fpRN s.fpscr) ∧
        fpscrBecomes s t [3, 6] none (some true) (some (fprfOf (t.f x.frD))) ∧ onlyFreeFpResult x.frD x.rc s t) ∧
      (s.plainFloat (3 :: inexactBit r.fi) → bit s.fpscr 25 = true → ∃ t, exec i s = .next t ∧
        hasValue (t.f x.frD) x.sign (r.magnitude x.p * 2 ^ (-x.p.adjust)) ∧
        fpscrBecomes s t (3 :: inexactBit r.fi) (some r.fr) (some r.fi) (some (fprfOf (t.f x.frD))) ∧
        onlyFpResult x.frD x.rc s t) ∧
      (s.preciseFloat → bit s.fpscr 25 = true ∨ bit s.fpscr 28 = true → raises .fpAssist 0 i s))) ∧
  (∀ (i : Instr) (s : State) (x : RoundForm), computes s i x → x.z ≠ 0 → |x.z| < x.p.smallest →
    ∃ r, Rounds x.p (fpRN s.fpscr) x.z r ∧
      (s.plainFloat (4 :: inexactBit r.fi) → bit s.fpscr 26 = true → ∃ t, exec i s = .next t ∧
        hasValue (t.f x.frD) x.sign (r.magnitude x.p * 2 ^ x.p.adjust) ∧
        fpscrBecomes s t (4 :: inexactBit r.fi) (some r.fr) (some r.fi) (some (fprfOf (t.f x.frD))) ∧
        onlyFpResult x.frD x.rc s t) ∧
      (s.preciseFloat → bit s.fpscr 26 = true → raises .fpAssist 0 i s) ∧
      (s.plainFloat [4] → bit s.fpscr 26 = false → bit s.fpscr 29 = true → ∃ t, exec i s = .next t ∧
        t.f x.frD = (BitVec.ofBool x.sign ++ 0#63 : BitVec 64) ∧
        fpscrBecomes s t [4] none none (some (fprfOf (t.f x.frD))) ∧ onlyFreeFpResult x.frD x.rc s t) ∧
      (bit s.fpscr 26 = false → bit s.fpscr 29 = false → msrFP s.msr = true → s.sie = false → s.inDebug = false →
        raises .fpAssist 0 i s) ∧
      (bit s.fpscr 26 = false → bit s.fpscr 29 = false → msrFP s.msr = true → s.sie = true → msrFE s.msr = false →
        ∃ t, exec i s = .next t ∧ hasValue (t.f x.frD) x.sign (r.magnitude x.p * 2 ^ x.p.adjust) ∧
          fpscrBecomes s t [] (some r.fr) (some r.fi) (some (fprfOf (t.f x.frD))) ∧
          recordedFp x.rc s t ∧ sameFprsBut s t [x.frD] ∧ sameMemory s t ∧ causesAre false false false true s t ∧
          t = { s with fpr := t.fpr, fpscr := t.fpscr, fpecr := t.fpecr, cr := t.cr, pc := s.pc + 4 }))

/-- Infinity minus infinity, infinity over infinity, zero over zero, infinity times zero, and a number that is not zero over zero.
Without the enable bit frD is the generated quiet NaN, or for the zero divide the infinity of the quotient's sign; with it frD and
FPRF are unchanged, and in precise mode the floating-point assist exception is taken before any effect. The exception bit is set, FR
and FI are 0, and nothing else changes (43_fp_arith.md R342, R347, R348). For the assist exception decisions D35 and D50 are
followed (log 30). -/
def Obligations.FpInvalidOperationResult : Prop :=
  (∀ (i : Instr) (s : State) (x : FpForm) (k : Nat), fpForm s i = some x → x.representable →
    (∀ d ∈ x.op.operands, isNaN d = false) → x.op.invalidBit = some k →
    (s.plainFloat [k] → bit s.fpscr 24 = false → deliversExactly i s x.frD x.rc 0x7FF8000000000000#64 [k]) ∧
    (s.plainFloat [k] → bit s.fpscr 24 = true → deliversNothing i s x.rc [k]) ∧
    (s.assists [k] → raises .fpAssist 0 i s)) ∧
  (∀ (i : Instr) (s : State) (x : FpForm) (a b : Dword), fpForm s i = some x → x.representable → x.op = .div a b →
    isZero b = true → isFinite a = true → isZero a = false →
    (s.plainFloat [5] → bit s.fpscr 27 = false →
      deliversExactly i s x.frD x.rc (BitVec.ofBool (fpSign a != fpSign b) ++ 0x7FF0000000000000#63 : BitVec 64) [5]) ∧
    (s.plainFloat [5] → bit s.fpscr 27 = true → deliversNothing i s x.rc [5]) ∧
    (s.assists [5] → raises .fpAssist 0 i s))

/-- An operand that is a NaN: frD is the first NaN in the order A, B, C made quiet, FR and FI are 0, FPRF is the code of a quiet NaN,
VXSNAN is set when an operand is a signalling NaN and VXIMZ when infinity is multiplied by zero. With such a bit and the
invalid-operation exception enabled, frD and FPRF are unchanged, and in precise mode the floating-point assist exception is taken
before any effect (43_fp_arith.md R342, R346, R347; 60_exceptions.md R692). For the assist exception decisions D35 and D50 are
followed (log 30). -/
def Obligations.FpNanOperand : Prop :=
  ∀ (i : Instr) (s : State) (x : FpForm) (d : Dword), fpForm s i = some x → x.representable →
    x.op.operands.find? isNaN = some d →
    let sets := (if x.op.operands.any isSNaN then [7] else []) ++ (if x.op.invalidBit = some 11 then [11] else [])
    (s.plainFloat sets → fpVE s.fpscr = false ∨ sets = [] →
      deliversExactly i s x.frD x.rc (d ||| 0x0008000000000000#64) sets) ∧
    (s.plainFloat sets → fpVE s.fpscr = true → sets ≠ [] → deliversNothing i s x.rc sets) ∧
    (s.assists sets → raises .fpAssist 0 i s)

/-- With Rc = 1 a floating-point instruction that is not stopped before it has an effect leaves FPSCR[0:3] as they are at its
completion in CR1 (00_scope.md R12), but for a denormalized operand of a double arithmetic instruction or of `frsp`, which takes the
floating-point assist exception and, in SIE mode, writes the four cause bits of FPECR and nothing else (43_fp_arith.md R353). In SIE
mode a move writes the cause bits too: DNB for a denormalized operand, by the model's reading of 10_state.md R57 (log 15). For
single-precision operations on operands outside single format R345 calls CR undefined, and nothing is said of it here (log 8);
decisions D38, D35 and D50 are followed (log 30). -/
def Obligations.FloatRecordAndDenormalOperand : Prop :=
  (∀ (i : Instr) (s t : State), floatRecords i = true → denormalForm s i = none →
    (∀ x, fpForm s i = some x → x.p = .single → x.representable) → s.excTaken = none →
    exec i s = .next t → t.excTaken ≠ some .before → crField t.cr 1 = bits t.fpscr 0 4) ∧
  (∀ (i : Instr) (s : State) (d : BitVec 3), denormalForm s i = some d → msrFP s.msr = true →
    (s.sie = false → s.inDebug = false → raises .fpAssist 0 i s) ∧
    (s.sie = true → ¬(msrFE s.msr = true ∧ bit s.fpscr 1 = true) →
      ∃ t, exec i s = .next t ∧ bits t.fpecr 28 4 = (d ++ 0#1 : BitVec 4) ∧ bits t.fpecr 0 28 = bits s.fpecr 0 28 ∧
        t = { s with fpecr := t.fpecr, pc := s.pc + 4 })) ∧
  (∀ (i : Instr) (s : State) (x : FpMoveForm), fpMoveForm s i = some x → msrFP s.msr = true →
    ∃ t, exec i s = .next t ∧ causesAre false (isDenormal x.source) false false s t)

/-- `frsp` of a finite operand in the single range delivers it rounded to single precision; of a zero or an infinity the operand; of
a NaN the NaN made quiet with its low 29 bits cleared, with VXSNAN when it is a signalling one, which with the invalid-operation
exception enabled leaves frD unchanged or, in precise mode, takes the floating-point assist exception
(44_fp_convert_compare_fpscr.md R391). That the low 29 bits of a NaN are cleared is PRESUMED: R391 takes it from general knowledge
(log 29, gap G6). For the assist exception decisions D35 and D50 are followed (log 30). -/
def Obligations.RoundToSingleResult : Prop :=
  (∀ (frD frB : Reg) (rc : Bool) (s : State) (sign : Bool) (m : Nat) (e : Int),
    isDenormal (s.f frB) = false → numOf (s.f frB) = .fin sign m e → m ≠ 0 → -126 ≤ exponentOf m e →
    (roundTo .single (fpRN s.fpscr) sign m e).exp ≤ 127 →
    let r := roundTo .single (fpRN s.fpscr) sign m e
    s.plainFloat (inexactBit r.fi) → ∃ t, exec (.frsp frD frB rc) s = .next t ∧
      isFinite (t.f frD) = true ∧ fpValue (t.f frD) = signFactor sign * ((r.sig : ℚ) * 2 ^ (r.exp - 23)) ∧
      fpscrRounded s t r.fr r.fi (t.f frD) ∧ recordedFp rc s t ∧ sameFprsBut s t [frD] ∧ sameMemory s t ∧
      t = { s with fpr := t.fpr, fpscr := t.fpscr, cr := t.cr, pc := s.pc + 4 }) ∧
  (∀ (frD frB : Reg) (rc : Bool) (s : State), isZero (s.f frB) = true ∨ isInf (s.f frB) = true → s.plainFloat [] →
    deliversExactly (.frsp frD frB rc) s frD rc (s.f frB) []) ∧
  (∀ (frD frB : Reg) (rc : Bool) (s : State), isNaN (s.f frB) = true →
    let v := (s.f frB ||| 0x0008000000000000#64) &&& 0xFFFFFFFFE0000000#64
    (s.plainFloat [] → isSNaN (s.f frB) = false → deliversExactly (.frsp frD frB rc) s frD rc v []) ∧
    (s.plainFloat [7] → isSNaN (s.f frB) = true → fpVE s.fpscr = false →
      deliversExactly (.frsp frD frB rc) s frD rc v [7]) ∧
    (s.plainFloat [7] → isSNaN (s.f frB) = true → fpVE s.fpscr = true → deliversNothing (.frsp frD frB rc) s rc [7]) ∧
    (s.assists [7] → isSNaN (s.f frB) = true → raises .fpAssist 0 (.frsp frD frB rc) s))

/-- `fctiw` and `fctiwz` round a finite operand to an integer n. When n is a 32-bit number it comes into the low word of frD, FR tells
that the magnitude grew, FI and XX that n is not the operand. When it is none, and for infinities and NaNs, VXCVI is set (VXSNAN too
for a signalling NaN), FR and FI are 0, and the low word is the largest or the smallest number by the sign, the smallest for a NaN;
with the exception enabled frD and FPRF are unchanged, and in precise mode the floating-point assist exception is taken. The upper
word of frD and FPRF are any value (free, log 6) where frD is written (44_fp_convert_compare_fpscr.md R392 to R394). XX beside an
invalid conversion is the inference of R394, which marks it derived; for the assist exception decisions D35 and D50 are followed
(log 30). -/
def Obligations.ConvertToIntegerResult : Prop :=
  ∀ (frD frB : Reg) (rc : Bool) (s : State) (rn : BitVec 2) (i : Instr),
    (i = .fctiw frD frB rc ∧ rn = fpRN s.fpscr) ∨ (i = .fctiwz frD frB rc ∧ rn = 1#2) →
    let b := s.f frB
    let v := fpValue b
    let invalid (word : Word) (sets : List Nat) : Prop :=
      (s.plainFloat sets → fpVE s.fpscr = false → ∃ t, exec i s = .next t ∧ (t.f frD).extractLsb' 0 32 = word ∧
        fpscrBecomes s t sets (some false) (some false) none ∧ onlyFreeFpResult frD rc s t) ∧
      (s.plainFloat sets → fpVE s.fpscr = true → ∃ t, exec i s = .next t ∧ t.fpr = s.fpr ∧
        fpscrBecomes s t sets (some false) (some false) (some (bits s.fpscr 15 5)) ∧ onlyFreeFpResult frD rc s t) ∧
      (s.assists sets → raises .fpAssist 0 i s)
    (isFinite b = true → ∃ n : ℤ, roundsTo rn v n ∧
      (-2 ^ 31 ≤ n → n ≤ 2 ^ 31 - 1 →
        (s.plainFloat (inexactBit (decide ((n : ℚ) ≠ v))) → ∃ t, exec i s = .next t ∧ ((t.f frD).extractLsb' 0 32).toInt = n ∧
          fpscrBecomes s t (inexactBit (decide ((n : ℚ) ≠ v))) (some (decide (|v| < |(n : ℚ)|))) (some (decide ((n : ℚ) ≠ v)))
            none ∧
          onlyFreeFpResult frD rc s t) ∧
        (s.assists (inexactBit (decide ((n : ℚ) ≠ v))) → raises .fpAssist 0 i s)) ∧
      (n < -2 ^ 31 → invalid 0x80000000#32 (23 :: inexactBit (decide ((n : ℚ) ≠ v)))) ∧
      (2 ^ 31 - 1 < n → invalid 0x7FFFFFFF#32 (23 :: inexactBit (decide ((n : ℚ) ≠ v))))) ∧
    (isInf b = true → invalid (if fpSign b then 0x80000000#32 else 0x7FFFFFFF#32) [23]) ∧
    (isNaN b = true → invalid 0x80000000#32 (if isSNaN b then [7, 23] else [23]))

/-- A floating-point compare writes FL, FG, FE, FU into its CR field and into FPCC; a signalling NaN sets VXSNAN, and `fcmpo` also sets
VXVC for a quiet NaN or, with the invalid-operation exception disabled, for a signalling one. An enabled invalid operation takes the
floating-point assist exception in precise mode, otherwise the compare completes on every operand and changes nothing else
(44_fp_convert_compare_fpscr.md R395 to R397; the cause bits of FPECR in SIE mode, log 15; decisions D35 and D50 for the assist
exception, log 30). -/
def Obligations.FpCompareResult : Prop :=
  ∀ (i : Instr) (ordered : Bool) (crfD : BitVec 3) (frA frB : Reg) (s : State),
    (i = .fcmpu crfD frA frB ∧ ordered = false) ∨ (i = .fcmpo crfD frA frB ∧ ordered = true) →
    let a := s.f frA
    let b := s.f frB
    let nan := isNaN a || isNaN b
    let snan := isSNaN a || isSNaN b
    let sets := (if snan then [7] else []) ++ (if ordered && nan && !(snan && fpVE s.fpscr) then [12] else [])
    (msrFP s.msr = true → msrFE s.msr = false ∨ s.sie = true ∨ fpVE s.fpscr = false ∨ sets = [] →
      ∃ t, exec i s = .next t ∧
        (bit t.cr (4 * crfD.toNat + 3) = nan) ∧
        (bit t.cr (4 * crfD.toNat) = true ↔ nan = false ∧ fpLess a b) ∧
        (bit t.cr (4 * crfD.toNat + 1) = true ↔ nan = false ∧ fpLess b a) ∧
        (bit t.cr (4 * crfD.toNat + 2) = true ↔ nan = false ∧ ¬fpLess a b ∧ ¬fpLess b a) ∧
        fpscrBecomes s t sets (some (bit s.fpscr 13)) (some (bit s.fpscr 14))
          (some (bits s.fpscr 15 1 ++ crField t.cr crfD : BitVec 5)) ∧
        sameCrBut s t crfD ∧ sameMemory s t ∧ causesAre false (isDenormal b) (isDenormal a) false s t ∧
        t = { s with fpscr := t.fpscr, fpecr := t.fpecr, cr := t.cr, pc := s.pc + 4 }) ∧
    (s.preciseFloat → fpVE s.fpscr = true → sets ≠ [] → raises .fpAssist 0 i s)

/-- The moves to the FPSCR write the bits they name, FEX and VX follow, and CR1 copies the result with Rc = 1; `mcrfs` copies a
field to CR and clears its exception bits; when FEX is then 1 in precise mode, the program exception follows the completed move, with
SRR0 = CIA, SRR1[11] set and SRR1[15] clear; that it follows each of these moves is decision D40 (log 30). `mffs` delivers the FPSCR
in the low word, the upper word is free (log 6). In SIE mode the cause bits of FPECR are written (log 15) (10_state.md R41;
44_fp_convert_compare_fpscr.md R410 to R418; 60_exceptions.md R684). -/
def Obligations.FpscrMoveResult : Prop :=
  (∀ (i : Instr) (s : State) (x : FpscrForm), fpscrForm s i = some x → msrFP s.msr = true →
    ∃ t u, exec i s = .next u ∧
      (∀ k, k < 32 → k ≠ 1 → k ≠ 2 → k ≠ 20 → bit t.fpscr k = x.bitOf k) ∧ t.fpscrSummed ∧ recordedFp x.rc s t ∧
      sameMemory s t ∧ causesAre false false false false s t ∧
      t = { s with fpscr := t.fpscr, fpecr := t.fpecr, cr := t.cr, pc := s.pc + 4 } ∧
      (¬(msrFE s.msr = true ∧ bit t.fpscr 1 = true) → u = t) ∧
      (msrFE s.msr = true → bit t.fpscr 1 = true → s.inDebug = false → enters .program s.pc 0x0010 t u)) ∧
  (∀ (crfD crfS : BitVec 3) (s : State), msrFP s.msr = true →
    ∃ t u, exec (.mcrfs crfD crfS) s = .next u ∧ crField t.cr crfD = crField s.fpscr crfS ∧
      (∀ k, k < 32 → k ≠ 1 → k ≠ 2 → k ≠ 20 →
        bit t.fpscr k =
          (bit s.fpscr k && !(decide (k / 4 = crfS.toNat) && (k == 0 || bit fpExceptionMask k)))) ∧
      t.fpscrSummed ∧ sameCrBut s t crfD ∧ sameMemory s t ∧ causesAre false false false false s t ∧
      t = { s with fpscr := t.fpscr, fpecr := t.fpecr, cr := t.cr, pc := s.pc + 4 } ∧
      (¬(msrFE s.msr = true ∧ bit t.fpscr 1 = true) → u = t) ∧
      (msrFE s.msr = true → bit t.fpscr 1 = true → s.inDebug = false → enters .program s.pc 0x0010 t u)) ∧
  (∀ (frD : Reg) (rc : Bool) (s : State), msrFP s.msr = true →
    ∃ t, exec (.mffs frD rc) s = .next t ∧ (t.f frD).extractLsb' 0 32 = s.fpscr ∧ recordedFp rc s t ∧
      sameFprsBut s t [frD] ∧ sameMemory s t ∧ causesAre false false false false s t ∧
      t = { s with fpr := t.fpr, fpecr := t.fpecr, cr := t.cr, pc := s.pc + 4, freeCount := t.freeCount })

/-! Branches, the condition register, traps. -/

/-- `b`: the target is LI || 00 with its sign, from CIA on or absolute; LR takes CIA + 4 with LK = 1; and the words that mean it
(48_branch_cr_system_trap.md R542). -/
def Obligations.BranchAlwaysResult : Prop :=
  (∀ (li : BitVec 24) (aa lk : Bool) (s : State), s.inDebug = false →
    exec (.b li aa lk) s = .next
      { s with
        pc := (if aa then 0 else s.pc) + (li ++ 0#2 : BitVec 26).signExtend 32
        lr := if lk then s.pc + 4 else s.lr }) ∧
  (∀ w : Word, bits w 0 6 = 18#6 → decode w = .ok (.b (bits w 6 24) (bit w 30) (bit w 31)))

/-- A conditional branch: CTR is decremented where BO[2] = 0 (not by `bcctr`), the branch is taken when the condition and the
counter test hold, and LR takes CIA + 4 with LK = 1 whether or not it is taken (48_branch_cr_system_trap.md R540, R541, R543 to
R545). -/
def Obligations.ConditionalBranchResult : Prop :=
  ∀ (i : Instr) (s : State) (x : BranchForm), branchForm s i = some x → s.inDebug = false →
    ∃ t, exec i s = .next t ∧ (x.taken s → t.pc = x.target) ∧ (¬x.taken s → t.pc = s.pc + 4) ∧
      t.ctr = x.ctr s ∧ t.lr = (if x.lk then s.pc + 4 else s.lr) ∧ sameMemory s t ∧
      t = { s with pc := t.pc, lr := t.lr, ctr := t.ctr }

/-- The eight condition register logical instructions write one bit of CR from two bits of CR, `mcrf` copies a field, nothing else
changes; and the words that mean them, whatever their reserved bits hold (48_branch_cr_system_trap.md R547 to R556). The extended
opcode 33 of `crnor` is PRESUMED: R552 takes it from general knowledge (log 29, gap G3). -/
def Obligations.ConditionRegisterResult : Prop :=
  (∀ (i : Instr) (s : State) (x : CrForm), crForm s i = some x →
    ∃ t, exec i s = .next t ∧ bit t.cr x.crbD.toNat = x.value ∧
      (∀ k, k < 32 → k ≠ x.crbD.toNat → bit t.cr k = bit s.cr k) ∧ sameMemory s t ∧
      t = { s with cr := t.cr, pc := s.pc + 4 }) ∧
  (∀ (crfD crfS : BitVec 3) (s : State),
    ∃ t, exec (.mcrf crfD crfS) s = .next t ∧ crField t.cr crfD = crField s.cr crfS ∧ sameCrBut s t crfD ∧
      sameMemory s t ∧ t = { s with cr := t.cr, pc := s.pc + 4 }) ∧
  (∀ w : Word, bits w 0 6 = 19#6 →
    (bits w 21 10 = 257#10 → decode w = .ok (.crand (bits w 6 5) (bits w 11 5) (bits w 16 5))) ∧
    (bits w 21 10 = 449#10 → decode w = .ok (.cror (bits w 6 5) (bits w 11 5) (bits w 16 5))) ∧
    (bits w 21 10 = 193#10 → decode w = .ok (.crxor (bits w 6 5) (bits w 11 5) (bits w 16 5))) ∧
    (bits w 21 10 = 225#10 → decode w = .ok (.crnand (bits w 6 5) (bits w 11 5) (bits w 16 5))) ∧
    (bits w 21 10 = 33#10 → decode w = .ok (.crnor (bits w 6 5) (bits w 11 5) (bits w 16 5))) ∧
    (bits w 21 10 = 289#10 → decode w = .ok (.creqv (bits w 6 5) (bits w 11 5) (bits w 16 5))) ∧
    (bits w 21 10 = 129#10 → decode w = .ok (.crandc (bits w 6 5) (bits w 11 5) (bits w 16 5))) ∧
    (bits w 21 10 = 417#10 → decode w = .ok (.crorc (bits w 6 5) (bits w 11 5) (bits w 16 5))) ∧
    (bits w 21 10 = 0#10 → decode w = .ok (.mcrf (bits w 6 3) (bits w 11 3))))

/-- A trap instruction does nothing when no comparison that TO names holds, and otherwise takes the program exception with SRR1[14]
(48_branch_cr_system_trap.md R566 to R568; 60_exceptions.md R680). -/
def Obligations.TrapResult : Prop :=
  ∀ (i : Instr) (s : State) (trapOn : BitVec 5) (a b : Word), trapForm s i = some (trapOn, a, b) →
    (¬traps trapOn a b → exec i s = .next { s with pc := s.pc + 4 }) ∧
    (traps trapOn a b → s.inDebug = false → raises .program 0x0002 i s)

/-! Exceptions. -/

/-- Taking any exception outside debug mode: SRR0, SRR1, MSR, ECR, the reservation, the handler's address, and no register of the
program (60_exceptions.md R636, R638, R652 to R654; 20_memory.md R164). The spec's own decisions, which the model follows
(log 30): ILE unchanged is D49, and the reservation cleared on the entry of debug mode too is D27. -/
def Obligations.ExceptionEntry : Prop :=
  ∀ (x : Exc) (srr0 : Word) (info : BitVec 16) (s : State), s.inDebug = false → enters x srr0 info s (s.take x srr0 info)

/-- `sc` takes the system call exception with SRR0 = CIA + 4; SRR1[0:15] is not stated (48_branch_cr_system_trap.md R560;
60_exceptions.md R689). `rfi` at the supervisor level restores MSR[16:31] from SRR1 and goes on at SRR0[0:29] || 00; when the
restored MSR and the FPSCR enable it, the floating-point enabled program exception follows, with SRR0 that address and SRR1[11] and
SRR1[15] set (R562; 60_exceptions.md R684). -/
def Obligations.SystemCallAndReturn : Prop :=
  (∀ s : State, s.inDebug = false → ∃ t info, exec .sc s = .next t ∧ enters .systemCall (s.pc + 4) info s t) ∧
  (∀ s : State, s.inDebug = false → msrPR s.msr = false → within s.msr msrMask →
    ∃ t u, exec .rfi s = .next u ∧ t.pc = s.srr0 &&& 0xFFFFFFFC#32 ∧
      t.msr = (s.msr &&& 0xFFFF0000#32) ||| (s.srr1 &&& 0x0000FF43#32) ∧
      sameMemory s t ∧ t = { s with pc := t.pc, msr := t.msr, freeze := t.freeze, stale := t.stale } ∧
      (¬(msrFE s.srr1 = true ∧ bit s.fpscr 1 = true) → u = t) ∧
      (msrFE s.srr1 = true → bit s.fpscr 1 = true → enters .program t.pc 0x0011 t u))

/-- The privileged instructions take the program exception with SRR1[13] at the user level and change nothing first. A move from or to
a special register that is not implemented in that direction takes the software emulation exception, at the supervisor level and,
for an internal number or one that is no supervisor register, at the user level; so does a move to or from an external register, the
time base among them, on which an error is reported, and `mftb` of another number than 268 and 269
(49_processor_control_sync_cache.md R585 to R587, R592; 60_exceptions.md R680; 70_reset_and_hazards.md R812). Which numbers exist
in which direction for TBL, TBU, PVR and ICDAT, the order of the two tests, and the other numbers of `mftb` are decisions D13, D47
and D48 of the spec, which the model follows (log 30). -/
def Obligations.PrivilegedAndUnimplementedRegisters : Prop :=
  (∀ (i : Instr) (s : State), privilegedForm i = true → msrPR s.msr = true → s.inDebug = false →
    raises .program 0x0004 i s) ∧
  (∀ (rD : Reg) (n : BitVec 10) (s : State), sprReadable n = false → s.mayAccess n ∨ sprExternal n = false →
    s.inDebug = false → raises .softwareEmulation 0 (.mfspr rD n) s) ∧
  (∀ (rS : Reg) (n : BitVec 10) (s : State), sprWritable n = false → s.mayAccess n ∨ sprExternal n = false →
    s.inDebug = false → raises .softwareEmulation 0 (.mtspr n rS) s) ∧
  (∀ (r : Reg) (n : BitVec 10) (s : State), sprExternal n = true → n ∈ s.platform.sprErrors → s.inDebug = false →
    (s.mayAccess n → raises .softwareEmulation 0 (.mfspr r n) s ∧ raises .softwareEmulation 0 (.mtspr n r) s) ∧
    raises .softwareEmulation 0 (.mftb r n) s) ∧
  (∀ (rD : Reg) (n : BitVec 10) (s : State), n ≠ 268#10 → n ≠ 269#10 → s.inDebug = false →
    raises .softwareEmulation 0 (.mftb rD n) s)

/-- No instruction at the user level changes MSR, a supervisor register (but the four cause bits of FPECR, which
floating-point instructions in SIE mode write), a development-support register or the port, unless it takes an exception
(49_processor_control_sync_cache.md R585, R587). -/
def Obligations.UserLevelCannotChangeSupervisor : Prop :=
  ∀ (i : Instr) (s t : State), msrPR s.msr = true → exec i s = .next t → s.excTaken = none → t.excTaken = none →
    sameSupervisor s t

/-- The asynchronous exceptions of a step outside debug mode, in the order of their priority, before any fetch: the non-maskable
breakpoint always, the maskable one with RI, the external interrupt and the decrementer with EE; the requests they clear
(60_exceptions.md R631, R648, R650, R668, R688, R698, R700). That a request is taken at the first boundary,
before the fetch, is decision D51 (logs 5, 27 and 30), and SRR1[0:15] = 0 of the external interrupt is D50 (log 30): the model's
choices. -/
def Obligations.RequestsInPriorityOrder : Prop :=
  ∀ s : State, s.events = [] → s.intrusions = [] → s.cutShort = false → s.checkstop = false → s.resetAsserted = false →
    s.inDebug = false → s.port.inbox = [] →
    (s.nmiPending = true → s.nmiAtReset = false →
      ∃ t, step s = .next t ∧ enters .nonMaskableBreakpoint s.pc 0 s t ∧ t.nmiPending = false) ∧
    (s.nmiPending = false → s.mebPending = true → msrRI s.msr = true →
      ∃ t, step s = .next t ∧ enters .maskableBreakpoint s.pc 0 s t ∧ t.mebPending = false) ∧
    (s.nmiPending = false → ¬(s.mebPending = true ∧ msrRI s.msr = true) → s.irq = true → msrEE s.msr = true →
      ∃ t, step s = .next t ∧ enters .external s.pc 0 s t ∧ t.decPending = s.decPending) ∧
    (s.nmiPending = false → ¬(s.mebPending = true ∧ msrRI s.msr = true) → s.irq = false → s.decPending = true →
      msrEE s.msr = true → ∃ t, step s = .next t ∧ enters .decrementer s.pc 0 s t ∧ t.decPending = false)

/-- A tick adds 1 to the time base and takes 1 from the decrementer, and a change of DEC[0] from 0 to 1 makes the request
(10_state.md R43, R48; 60_exceptions.md R688). That TB wraps at its largest value is PRESUMED (log 29, gap G1), and that the
tick is an event of the host is the model's choice (log 5). -/
def Obligations.TickCounts : Prop :=
  ∀ s : State, s.checkstop = false →
    s.deliver .tick =
      { s with
        tb := s.tb + 1
        dec := s.dec - 1
        decPending := s.decPending || decide (s.dec = 0) }

/-! Special registers. -/

/-- `mfspr` of a register without a read effect delivers it and changes nothing but rD; ECR and the error bits of ICCST are
cleared by their reads, ICCST by decision D11 of the spec (log 30); ICDAT gives the word or the tag that ICADR names; a counter that
the read itself makes count gives any CNTV (free, log 6) and leaves another draw in the register (log 26); DPDR gives any value
outside debug mode, and in it waits for the port. That ICDAT gives the arrays as they are, invalid lines too, is DEDUCED (log 24; R185
and decision D29 leave tag and LRU reads open) (49_processor_control_sync_cache.md R588, R589; 10_state.md R55, R56; 20_memory.md
R180; 61_development_support.md R743; 62_debug_mode_and_port.md R752, R770, R778, R779). -/
def Obligations.MoveFromSprResult : Prop :=
  (∀ (rD : Reg) (n : BitVec 10) (v : Word) (s : State), sprValue s n = some v → (msrPR s.msr = false ∨ sprUser n) →
    s.platform.sprErrors = [] →
    ∃ t, exec (.mfspr rD n) s = .next t ∧ t.r rD = v ∧ sameGprsBut s t [rD] ∧ sameMemory s t ∧
      t = { s with gpr := t.gpr, pc := s.pc + 4 }) ∧
  (∀ (rD : Reg) (s : State), msrPR s.msr = false →
    ∃ t, exec (.mfspr rD 148) s = .next t ∧ t.r rD = s.ecr ∧ sameGprsBut s t [rD] ∧
      t = { s with gpr := t.gpr, pc := s.pc + 4, ecr := if s.debugEnabled && !s.inDebug then s.ecr else 0 }) ∧
  (∀ (rD : Reg) (s : State), msrPR s.msr = false → s.platform.sprErrors = [] →
    ∃ t, exec (.mfspr rD 560) s = .next t ∧ t.r rD = s.iccst ∧ sameGprsBut s t [rD] ∧
      t = { s with gpr := t.gpr, pc := s.pc + 4, iccst := s.iccst &&& 0xFFC7FFFF#32 }) ∧
  (∀ (rD : Reg) (s : State), msrPR s.msr = false → s.platform.sprErrors = [] →
    let set := s.icache.setAt (bits s.icadr 21 7)
    let l := set.way (bit s.icadr 19)
    ∃ t, exec (.mfspr rD 562) s = .next t ∧ sameGprsBut s t [rD] ∧ t = { s with gpr := t.gpr, pc := s.pc + 4 } ∧
      (bit s.icadr 18 = true →
        some (t.r rD) = [l.word0, l.word1, l.word2, l.word3][(bits s.icadr 28 2).toNat]?) ∧
      (bit s.icadr 18 = false →
        bits (t.r rD) 0 21 = l.tag ∧ bit (t.r rD) 22 = l.valid ∧ bit (t.r rD) 23 = l.lock ∧ bit (t.r rD) 24 = set.lru)) ∧
  (∀ (rD : Reg) (s : State) (n : BitVec 10) (c : Word) (k : Nat), msrPR s.msr = false →
    (n = 150#10 ∧ c = s.countA ∧ k = 0) ∨ (n = 151#10 ∧ c = s.countB ∧ k = 1) →
    ∃ t, exec (.mfspr rD n) s = .next t ∧ bits (t.r rD) 16 16 = bits c 16 16 ∧ sameGprsBut s t [rD] ∧
      (¬s.countsItself c k → t.r rD = c ∧ t = { s with gpr := t.gpr, pc := s.pc + 4 }) ∧
      t = { s with
        gpr := t.gpr, pc := s.pc + 4, freeCount := t.freeCount
        countA := if k = 0 then t.countA else s.countA, countB := if k = 1 then t.countB else s.countB }) ∧
  (∀ (rD : Reg) (s : State), msrPR s.msr = false → s.platform.sprErrors = [] →
    (s.inDebug = false → ∃ t, exec (.mfspr rD 630) s = .next t ∧ sameGprsBut s t [rD] ∧
      t = { s with gpr := t.gpr, pc := s.pc + 4, freeCount := t.freeCount }) ∧
    (s.inDebug = true →
      exec (.mfspr rD 630) s = .next { s with port := { s.port with wait := some rD }, pc := s.pc + 4 }))

/-- `mtspr` stores the bits of a register that are no reserved ones, and nothing else changes; DEC makes its request when bit 0 goes
from 0 to 1 (49_processor_control_sync_cache.md R590, R591; 62_debug_mode_and_port.md R771). The write of BAR (R771) and the bits of
FPECR that are stored (R591) are inferences that the spec marks as its own. -/
def Obligations.MoveToSprResult : Prop :=
  ∀ (rS : Reg) (n : BitVec 10) (k : Word) (s : State), sprStored n = some k → (msrPR s.msr = false ∨ sprUser n) →
    s.platform.sprErrors = [] → ¬(sprDevelopment n = true ∧ s.debugEnabled = true ∧ s.inDebug = false) →
    ∃ t, exec (.mtspr n rS) s = .next t ∧ sprValue t n = some (s.r rS &&& k) ∧
      (∀ m, m ≠ n → sprValue t m = sprValue s m) ∧
      t.decPending = (s.decPending || (decide (n = 22#10) && !bit s.dec 0 && bit (s.r rS) 0)) ∧
      t = { s with
        xer := t.xer, lr := t.lr, ctr := t.ctr, dsisr := t.dsisr, dar := t.dar, dec := t.dec, decPending := t.decPending
        srr0 := t.srr0, srr1 := t.srr1, sprg0 := t.sprg0, sprg1 := t.sprg1, sprg2 := t.sprg2, sprg3 := t.sprg3
        cmpA := t.cmpA, cmpB := t.cmpB, cmpC := t.cmpC, cmpD := t.cmpD, cmpE := t.cmpE, cmpF := t.cmpF, cmpG := t.cmpG
        cmpH := t.cmpH, der := t.der, lctrl1 := t.lctrl1, bar := t.bar, icadr := t.icadr, fpecr := t.fpecr, pc := s.pc + 4 }

/-- The other writes: EIE, EID and NRI write MSR[EE] and MSR[RI]; TBL and TBU write one half of the time base; the debug registers
are locked outside debug mode when it is enabled; ICTRL and LCTRL2 store their bits that TECR does not hold, the counters their CNTV
and CNTC (any CNTV when the write itself is counted, a free value, log 6), and a write of ECR is ignored; DPDR goes to the port in
debug mode and is ignored outside it; ICCST commands 1 and 2 enable and disable the cache, and leave the arrays and, by the model's
choice (log 31), the two buffers; with command 2 the prefetch queue may keep older words of the arrays (log 10)
(49_processor_control_sync_cache.md R591;
61_development_support.md R743, R746; 62_debug_mode_and_port.md R752, R771, R775 to R780; 20_memory.md R172, R178, R179). -/
def Obligations.MoveToSprEffects : Prop :=
  ∀ (rS : Reg) (s : State), msrPR s.msr = false → s.platform.sprErrors = [] →
    exec (.mtspr 80 rS) s = .next { s with msr := setBit (setBit s.msr 16 true) 30 true, pc := s.pc + 4 } ∧
    exec (.mtspr 81 rS) s = .next { s with msr := setBit (setBit s.msr 16 false) 30 true, pc := s.pc + 4 } ∧
    exec (.mtspr 82 rS) s = .next { s with msr := setBit (setBit s.msr 16 false) 30 false, pc := s.pc + 4 } ∧
    exec (.mtspr 284 rS) s = .next { s with tb := (s.tb.extractLsb' 32 32 ++ s.r rS : BitVec 64), pc := s.pc + 4 } ∧
    exec (.mtspr 285 rS) s = .next { s with tb := (s.r rS ++ s.tb.extractLsb' 0 32 : BitVec 64), pc := s.pc + 4 } ∧
    (∀ n, sprDevelopment n = true → s.locked →
      exec (.mtspr n rS) s = .next { s with pc := s.pc + 4 }) ∧
    (s.inDebug = false → exec (.mtspr 630 rS) s = .next { s with pc := s.pc + 4 }) ∧
    (bits (s.r rS) 4 3 = 1#3 → ∃ t, exec (.mtspr 560 rS) s = .next t ∧ bit t.iccst 0 = true ∧
      t = { s with iccst := t.iccst, pc := s.pc + 4 }) ∧
    (bits (s.r rS) 4 3 = 2#3 → ∃ t, exec (.mtspr 560 rS) s = .next t ∧ bit t.iccst 0 = false ∧
      (s.stale = [] → t.stale = []) ∧ t = { s with iccst := t.iccst, stale := t.stale, pc := s.pc + 4 }) ∧
    (s.inDebug = true →
      exec (.mtspr 630 rS) s = .next { s with port := { s.port with data := some (s.r rS) }, pc := s.pc + 4 }) ∧
    exec (.mtspr 148 rS) s = .next { s with pc := s.pc + 4 } ∧
    (¬s.locked →
      exec (.mtspr 157 rS) s = .next { s with lctrl2 := s.r rS &&& 0xFFFFF80C#32, pc := s.pc + 4 } ∧
      exec (.mtspr 158 rS) s = .next { s with ictrl := s.r rS &&& 0xFFFFFF0F#32, pc := s.pc + 4 } ∧
      (¬s.countsItself s.countA 0 →
        exec (.mtspr 150 rS) s = .next { s with countA := s.r rS &&& 0xFFFF0003#32, pc := s.pc + 4 }) ∧
      (¬s.countsItself s.countB 1 →
        exec (.mtspr 151 rS) s = .next { s with countB := s.r rS &&& 0xFFFF0003#32, pc := s.pc + 4 }) ∧
      (∃ t, exec (.mtspr 150 rS) s = .next t ∧ bits t.countA 16 16 = bits (s.r rS) 16 16 &&& 3#16 ∧
        t = { s with countA := t.countA, freeCount := t.freeCount, pc := s.pc + 4 }) ∧
      (∃ t, exec (.mtspr 151 rS) s = .next t ∧ bits t.countB 16 16 = bits (s.r rS) 16 16 &&& 3#16 ∧
        t = { s with countB := t.countB, freeCount := t.freeCount, pc := s.pc + 4 }))

/-- Moves of CR, XER[0:3], MSR and the time base (49_processor_control_sync_cache.md R580 to R584, R592): `mtcrf` writes the
fields its mask selects, `mcrxr` moves and clears, `mtmsr` writes all but the reserved bits, and when the new MSR and the FPSCR enable
it the floating-point enabled program exception follows, with SRR0 = CIA + 4 and SRR1[11] and SRR1[15] set (60_exceptions.md
R684). -/
def Obligations.MachineRegisterMoves : Prop :=
  (∀ (rD : Reg) (s : State), ∃ t, exec (.mfcr rD) s = .next t ∧ t.r rD = s.cr ∧ sameGprsBut s t [rD] ∧
    t = { s with gpr := t.gpr, pc := s.pc + 4 }) ∧
  (∀ (crm : BitVec 8) (rS : Reg) (s : State), ∃ t, exec (.mtcrf crm rS) s = .next t ∧
    (∀ f : BitVec 3, crField t.cr f = if crm.getLsbD (7 - f.toNat) then crField (s.r rS) f else crField s.cr f) ∧
    t = { s with cr := t.cr, pc := s.pc + 4 }) ∧
  (∀ (crfD : BitVec 3) (s : State), ∃ t, exec (.mcrxr crfD) s = .next t ∧ crField t.cr crfD = bits s.xer 0 4 ∧
    bits t.xer 0 4 = 0 ∧ bits t.xer 4 28 = bits s.xer 4 28 ∧ sameCrBut s t crfD ∧
    t = { s with cr := t.cr, xer := t.xer, pc := s.pc + 4 }) ∧
  (∀ (rD : Reg) (s : State), msrPR s.msr = false → ∃ t, exec (.mfmsr rD) s = .next t ∧ t.r rD = s.msr ∧
    sameGprsBut s t [rD] ∧ t = { s with gpr := t.gpr, pc := s.pc + 4 }) ∧
  (∀ (rS : Reg) (s : State), msrPR s.msr = false →
    let t := { s with msr := s.r rS &&& 0x0001FF43#32, pc := s.pc + 4 }
    (¬(msrFE (s.r rS) = true ∧ bit s.fpscr 1 = true) → exec (.mtmsr rS) s = .next t) ∧
    (msrFE (s.r rS) = true → bit s.fpscr 1 = true → s.inDebug = false →
      ∃ u, exec (.mtmsr rS) s = .next u ∧ enters .program t.pc 0x0011 t u)) ∧
  (∀ (rD : Reg) (s : State),
    (268#10 ∉ s.platform.sprErrors → ∃ t, exec (.mftb rD 268) s = .next t ∧ t.r rD = s.tb.extractLsb' 0 32 ∧
      sameGprsBut s t [rD] ∧ t = { s with gpr := t.gpr, pc := s.pc + 4 }) ∧
    (269#10 ∉ s.platform.sprErrors → ∃ t, exec (.mftb rD 269) s = .next t ∧ t.r rD = s.tb.extractLsb' 32 32 ∧
      sameGprsBut s t [rD] ∧ t = { s with gpr := t.gpr, pc := s.pc + 4 }))

/-! Synchronization, reservation, cache. -/

/-- `sync` and `eieio` only advance; `isync` also empties the buffers and the older versions that they and the prefetch queue may hold;
`icbi` makes the line with the byte invalid where it is in the arrays and not locked, leaves every other line and the LRU bits, and
changes nothing but the cache (49_processor_control_sync_cache.md R609 to R612; 20_memory.md R155, R173). That `isync` empties the two
buffers is the model's form of R155 and R184 (log 10), and that `icbi` leaves a locked line is decision D28 (log 30). -/
def Obligations.SynchronizationResult : Prop :=
  (∀ s : State, exec .sync s = .next { s with pc := s.pc + 4 } ∧ exec .eieio s = .next { s with pc := s.pc + 4 }) ∧
  (∀ s : State, ∃ t, exec .isync s = .next t ∧ t.icache.burst = none ∧ t.icache.line = none ∧
    t.icache.sets = s.icache.sets ∧ (∀ e ∈ t.stale, e.queued = false ∧ e.buffered = false) ∧ sameMemory s t ∧
    t = { s with icache := t.icache, stale := t.stale, pc := s.pc + 4 }) ∧
  (∀ (rA rB : Reg) (s : State), s.cacheSound →
    ∃ t, exec (.icbi rA rB) s = .next t ∧
      (∀ k way, t.lineOfSet k way =
        { s.lineOfSet k way with
          valid := (s.lineOfSet k way).valid &&
            (!(k == setOf (s.eaX rA rB) && (s.lineOfSet k way).hits (s.eaX rA rB)) || (s.lineOfSet k way).lock) }) ∧
      (∀ k, (t.icache.setAt k).lru = (s.icache.setAt k).lru) ∧
      sameMemory s t ∧ t = { s with icache := t.icache, stale := t.stale, pc := s.pc + 4 })

/-- The commands of ICCST on the line of the byte in ICADR, at the supervisor level. Unlock line clears the lock of the line if it is
in the arrays; unlock all clears the lock of every valid line; invalidate all makes every line invalid that is not locked, empties the
buffers, and lets the LRU bit of a set name way 0, or way 1 when only way 0 is locked. Load & lock locks the line if it is in the arrays;
otherwise it reports that both ways are locked (CCER2), or a bus error on the line (CCER1), with nothing locked, or brings the line
from memory to a way that was not locked, and locks it. Nothing else changes but CMD and these bits of ICCST, the buffers, the
versions kept of old words (log 10) and pc (20_memory.md R172, R174 to R179; 10_state.md R54); commands 0 and 7 do nothing. The model's
choices: CCER2 before CCER1, a cache-inhibited line that is not locked, load & lock while the cache is disabled, the burst buffer
empty after its bus error, the LRU bit kept by the lock and the unlock of a line in the arrays, and a line that only a buffer holds
fetched from memory (log 13); the LRU bit where both ways are locked, of which nothing is said here, and the buffers at an enable
or a disable (log 31). That CMD reads back, and that 7 is no command, is decision D12; that a write leaves the error bits is decision
D11 (log 30). -/
def Obligations.CacheCommandResult : Prop :=
  ∀ (rS : Reg) (s : State), msrPR s.msr = false → s.platform.sprErrors = [] → s.cacheSound →
    let a := s.icadr
    let command := bits (s.r rS) 4 3
    ∃ t, exec (.mtspr 560 rS) s = .next t ∧ bits t.iccst 4 3 = command ∧ sameMemory s t ∧
      t = { s with icache := t.icache, iccst := t.iccst, stale := t.stale, pc := s.pc + 4 } ∧
      (command ≠ 1#3 → command ≠ 2#3 → bit t.iccst 0 = bit s.iccst 0) ∧
      (command ≠ 3#3 → t.iccst &&& 0x71FFFFFF#32 = s.iccst &&& 0x71FFFFFF#32) ∧
      (command = 4#3 → (∀ k way, t.lineOfSet k way =
          { s.lineOfSet k way with
            lock := (s.lineOfSet k way).lock && !(k == setOf a && (s.lineOfSet k way).hits a) }) ∧
        (∀ k, (t.icache.setAt k).lru = (s.icache.setAt k).lru) ∧ t.icache.burst = s.icache.burst ∧
        t.icache.line = s.icache.line) ∧
      (command = 0#3 ∨ command = 7#3 → t.icache = s.icache ∧ t.stale = s.stale) ∧
      (command = 1#3 ∨ command = 2#3 → t.icache = s.icache) ∧
      (command = 5#3 → (∀ k way, t.lineOfSet k way =
          { s.lineOfSet k way with lock := (s.lineOfSet k way).lock && !(s.lineOfSet k way).valid }) ∧
        (∀ k, (t.icache.setAt k).lru = (s.icache.setAt k).lru) ∧ t.icache.burst = s.icache.burst ∧
        t.icache.line = s.icache.line) ∧
      (command = 6#3 → (∀ k way, t.lineOfSet k way =
          { s.lineOfSet k way with valid := (s.lineOfSet k way).valid && (s.lineOfSet k way).lock }) ∧
        (∀ k, (s.lineOfSet k false).lock = false → (t.icache.setAt k).lru = false) ∧
        (∀ k, (s.lineOfSet k false).lock = true → (s.lineOfSet k true).lock = false → (t.icache.setAt k).lru = true) ∧
        t.icache.burst = none ∧ t.icache.line = none) ∧
      (command = 3#3 → s.cached a → t.iccst &&& 0x71FFFFFF#32 = s.iccst &&& 0x71FFFFFF#32 ∧
        (∀ k, (t.icache.setAt k).lru = (s.icache.setAt k).lru) ∧
        ∀ k way, t.lineOfSet k way =
          { s.lineOfSet k way with
            lock := (s.lineOfSet k way).lock || (k == setOf a && (s.lineOfSet k way).hits a) }) ∧
      (command = 3#3 → ¬s.cached a → (∀ way, (s.lineOfSet (setOf a) way).lock = true) →
        bit t.iccst 11 = true ∧ bit t.iccst 10 = bit s.iccst 10 ∧ t.icache = s.icache) ∧
      (command = 3#3 → ¬s.cached a → ¬(∀ way, (s.lineOfSet (setOf a) way).lock = true) →
        bit t.iccst 11 = bit s.iccst 11 ∧
        (s.lineFails a → bit t.iccst 10 = true ∧ t.icache.sets = s.icache.sets ∧ t.icache.burst = none) ∧
        (¬s.lineFails a → bit t.iccst 10 = bit s.iccst 10 ∧
          (s.cacheInhibited a = true → t.icache.sets = s.icache.sets) ∧
          (s.cacheInhibited a = false → ∃ way, (s.lineOfSet (setOf a) way).lock = false ∧ t.holdsLine way true a s ∧
            ∀ k v, ¬(k = setOf a ∧ v = way) → t.lineOfSet k v = s.lineOfSet k v)))

/-- `lwarx` loads the word and reserves its granule; `stwcx.` without a reservation stores nothing and clears CR0[EQ]; with one, of
whatever granule, it stores the word, sets CR0[EQ] and clears the reservation (20_memory.md R160 to R163;
49_processor_control_sync_cache.md R614, R615). -/
def Obligations.ReservationResult : Prop :=
  (∀ (rD rA rB : Reg) (s : State), (s.eaX rA rB).toNat % 4 = 0 → s.accessible .load (s.eaX rA rB) 4 →
    ∃ t, exec (.lwarx rD rA rB) s = .next t ∧ t.r rD = s.wordAt (s.busAddress (s.eaX rA rB) 4) ∧
      t.reservation = some (bits (s.eaX rA rB) 0 27) ∧ sameGprsBut s t [rD] ∧ sameMemory s t ∧
      t = { s with gpr := t.gpr, reservation := t.reservation, pc := s.pc + 4, lbus := t.lbus }) ∧
  (∀ (rS rA rB : Reg) (s : State), (s.eaX rA rB).toNat % 4 = 0 → s.reservation = none →
    ∃ t, exec (.stwcx rS rA rB) s = .next t ∧ crField t.cr 0 = crBits false false false (xerSO s.xer) ∧
      sameCrBut s t 0 ∧ sameMemory s t ∧ t = { s with cr := t.cr, pc := s.pc + 4 }) ∧
  (∀ (rS rA rB : Reg) (s : State), (s.eaX rA rB).toNat % 4 = 0 → s.reservation ≠ none → s.memoryCanonical →
    s.accessible .store (s.eaX rA rB) 4 →
    ∃ t, exec (.stwcx rS rA rB) s = .next t ∧ t.wordAt (s.busAddress (s.eaX rA rB) 4) = s.r rS ∧
      sameMemoryBut s t (s.busAddress (s.eaX rA rB) 4) 4 ∧
      crField t.cr 0 = crBits false false true (xerSO s.xer) ∧ sameCrBut s t 0 ∧ t.reservation = none ∧
      t = { s with cr := t.cr, reservation := none, mem := t.mem, stale := t.stale, pc := s.pc + 4, lbus := t.lbus })

/-! Debug mode. -/

/-- In debug mode nothing happens until the development tool sends a transmission. With no status latched and no read of DPDR that
waits, an instruction it sends is `exec` of the decoded word, with CIA as it was unless the instruction leaves debug mode; a word
that is no instruction is reported as a software emulation exception. Data it sends goes to the register of the read that waits, an
instruction in its place, like data without such a read, is a sequence error, which sets ECR[MCE] and clears the reservation
(20_memory.md R164); a trap-enable transmission updates TECR and makes the requests of its bits that rise; and a latched exception is
shifted out in place of the next instruction, which is ignored. CIA never moves while debug mode lasts (61_development_support.md R748;
62_debug_mode_and_port.md R752, R753). How the status latches stand before and after a transmission, that no trace exception is
reported whatever MSR[SE] and MSR[BE] are, and that no request is reported after a read of DPDR that a sequence error ends, rests on
log 20; that the instruction comparators do not run in debug mode is decision D61 (log 30). -/
def Obligations.DebugModeRunsFromPort : Prop :=
  (∀ s : State, s.events = [] → s.intrusions = [] → s.cutShort = false → s.checkstop = false → s.resetAsserted = false →
    s.inDebug = true → s.port.inbox = [] → step s = .next s) ∧
  (∀ (s t : State) (w : Word) (rest : List Transmission), s.events = [] → s.checkstop = false →
    s.resetAsserted = false → s.inDebug = true → s.port.inbox = .cpuInstr w :: rest → step s = .next t →
    t.inDebug = true → t.pc = s.pc) ∧
  (∀ (s : State) (w : Word) (rest : List Transmission), s.events = [] → s.intrusions = [] → s.cutShort = false →
    s.checkstop = false → s.resetAsserted = false → s.inDebug = true → s.port.inbox = .cpuInstr w :: rest →
    s.port.data = none → s.port.seq = false →
    let u := { s.fresh with port := { s.port with inbox := rest, reply := some .null } }
    (s.port.exc = false → s.port.wait = none →
      (∀ i t, decode w = .ok i → exec i u = .next t → bit t.lctrl2 0 = false → bit t.lctrl2 10 = false →
        t.intrusions = [] → (t.irq && msrEE t.msr) = false → (t.decPending && msrEE t.msr) = false →
        step s = .next (if t.inDebug then { t with pc := s.pc } else t)) ∧
      (∀ e, decode w = .error e → (s.irq && msrEE s.msr) = false → (s.decPending && msrEE s.msr) = false →
        ∃ t, step s = .next t ∧ t.ecr = setBit s.ecr 17 true ∧ t.port = { u.port with exc := true } ∧ t.inDebug = true ∧
          t.pc = s.pc ∧ t.gpr = s.gpr ∧ t.srr0 = s.srr0 ∧ t.srr1 = s.srr1 ∧ t.msr = s.msr ∧ sameMemory s t)) ∧
    (s.port.exc = true → s.port.wait = none → step s = .next { s with
      port := { s.port with inbox := rest, exc := false, reply := some .cpuException } }) ∧
    (s.port.exc = false → s.port.wait ≠ none → step s = .next { s with
      ecr := setBit s.ecr 3 true, reservation := none
      port := { s.port with inbox := rest, reply := some .null, seq := true, wait := none } })) ∧
  (∀ (s : State) (rest : List Transmission), s.events = [] → s.intrusions = [] → s.cutShort = false →
    s.checkstop = false → s.resetAsserted = false → s.inDebug = true → s.port.data = none → s.port.seq = false →
    s.port.exc = false →
    (∀ v, s.port.inbox = .cpuData v :: rest → s.port.wait = none → step s = .next { s with
      ecr := setBit s.ecr 3 true, reservation := none
      port := { s.port with inbox := rest, reply := some .null, seq := true } }) ∧
    (∀ d : BitVec 7, s.port.inbox = .trapEnable false d :: rest → step s = .next { s with
      port := { s.port with
        inbox := rest, reply := some .null, tecr := (d ++ s.port.tecr.extractLsb' 0 2 : BitVec 9) } }) ∧
    (∀ d : BitVec 7, s.port.inbox = .trapEnable true d :: rest → step s = .next { s with
      nmiPending := s.nmiPending || (!s.port.tecr.getLsbD 1 && d.getLsbD 6)
      mebPending := s.mebPending || (!s.port.tecr.getLsbD 0 && d.getLsbD 5)
      port := { s.port with
        inbox := rest, reply := some .null
        tecr := (s.port.tecr.extractLsb' 2 7 ++ d.extractLsb' 5 2 : BitVec 9) } })) ∧
  (∀ (s : State) (v : Word) (rest : List Transmission) (rD : Reg), s.events = [] → s.intrusions = [] →
    s.cutShort = false → s.checkstop = false → s.resetAsserted = false → s.inDebug = true →
    s.port.inbox = .cpuData v :: rest → s.port.wait = some rD → s.port.data = none → s.port.seq = false →
    s.port.exc = false → (s.irq && msrEE s.msr) = false → (s.decPending && msrEE s.msr) = false →
    ∃ t, step s = .next t ∧ t.r rD = v ∧ sameGprsBut s t [rD] ∧ t.pc = s.pc ∧ sameMemory s t ∧
      t.port = { s.port with inbox := rest, reply := some .null, wait := none } ∧ t.inDebug = true)
end

