-- ==== Sys2Proof/Laws/State.lean ====
section
/-! SUPPORT. One lemma per field per update of the state: what an update does not touch reads as before. -/

namespace Sys2Proof.Laws

open Sys2Proof Sys2Proof.Machine

variable (s : State)

/-! `setR` -/

@[simp] theorem setR_fpr (n : Reg) (v : Word) : (s.setR n v).fpr = s.fpr := rfl
@[simp] theorem setR_pc (n : Reg) (v : Word) : (s.setR n v).pc = s.pc := rfl
@[simp] theorem setR_cr (n : Reg) (v : Word) : (s.setR n v).cr = s.cr := rfl
@[simp] theorem setR_xer (n : Reg) (v : Word) : (s.setR n v).xer = s.xer := rfl
@[simp] theorem setR_lr (n : Reg) (v : Word) : (s.setR n v).lr = s.lr := rfl
@[simp] theorem setR_ctr (n : Reg) (v : Word) : (s.setR n v).ctr = s.ctr := rfl
@[simp] theorem setR_fpscr (n : Reg) (v : Word) : (s.setR n v).fpscr = s.fpscr := rfl
@[simp] theorem setR_msr (n : Reg) (v : Word) : (s.setR n v).msr = s.msr := rfl
@[simp] theorem setR_tb (n : Reg) (v : Word) : (s.setR n v).tb = s.tb := rfl
@[simp] theorem setR_dec (n : Reg) (v : Word) : (s.setR n v).dec = s.dec := rfl
@[simp] theorem setR_dsisr (n : Reg) (v : Word) : (s.setR n v).dsisr = s.dsisr := rfl
@[simp] theorem setR_dar (n : Reg) (v : Word) : (s.setR n v).dar = s.dar := rfl
@[simp] theorem setR_srr0 (n : Reg) (v : Word) : (s.setR n v).srr0 = s.srr0 := rfl
@[simp] theorem setR_srr1 (n : Reg) (v : Word) : (s.setR n v).srr1 = s.srr1 := rfl
@[simp] theorem setR_sprg0 (n : Reg) (v : Word) : (s.setR n v).sprg0 = s.sprg0 := rfl
@[simp] theorem setR_sprg1 (n : Reg) (v : Word) : (s.setR n v).sprg1 = s.sprg1 := rfl
@[simp] theorem setR_sprg2 (n : Reg) (v : Word) : (s.setR n v).sprg2 = s.sprg2 := rfl
@[simp] theorem setR_sprg3 (n : Reg) (v : Word) : (s.setR n v).sprg3 = s.sprg3 := rfl
@[simp] theorem setR_fpecr (n : Reg) (v : Word) : (s.setR n v).fpecr = s.fpecr := rfl
@[simp] theorem setR_iccst (n : Reg) (v : Word) : (s.setR n v).iccst = s.iccst := rfl
@[simp] theorem setR_icadr (n : Reg) (v : Word) : (s.setR n v).icadr = s.icadr := rfl
@[simp] theorem setR_cmpA (n : Reg) (v : Word) : (s.setR n v).cmpA = s.cmpA := rfl
@[simp] theorem setR_cmpB (n : Reg) (v : Word) : (s.setR n v).cmpB = s.cmpB := rfl
@[simp] theorem setR_cmpC (n : Reg) (v : Word) : (s.setR n v).cmpC = s.cmpC := rfl
@[simp] theorem setR_cmpD (n : Reg) (v : Word) : (s.setR n v).cmpD = s.cmpD := rfl
@[simp] theorem setR_cmpE (n : Reg) (v : Word) : (s.setR n v).cmpE = s.cmpE := rfl
@[simp] theorem setR_cmpF (n : Reg) (v : Word) : (s.setR n v).cmpF = s.cmpF := rfl
@[simp] theorem setR_cmpG (n : Reg) (v : Word) : (s.setR n v).cmpG = s.cmpG := rfl
@[simp] theorem setR_cmpH (n : Reg) (v : Word) : (s.setR n v).cmpH = s.cmpH := rfl
@[simp] theorem setR_ecr (n : Reg) (v : Word) : (s.setR n v).ecr = s.ecr := rfl
@[simp] theorem setR_der (n : Reg) (v : Word) : (s.setR n v).der = s.der := rfl
@[simp] theorem setR_countA (n : Reg) (v : Word) : (s.setR n v).countA = s.countA := rfl
@[simp] theorem setR_countB (n : Reg) (v : Word) : (s.setR n v).countB = s.countB := rfl
@[simp] theorem setR_lctrl1 (n : Reg) (v : Word) : (s.setR n v).lctrl1 = s.lctrl1 := rfl
@[simp] theorem setR_lctrl2 (n : Reg) (v : Word) : (s.setR n v).lctrl2 = s.lctrl2 := rfl
@[simp] theorem setR_ictrl (n : Reg) (v : Word) : (s.setR n v).ictrl = s.ictrl := rfl
@[simp] theorem setR_bar (n : Reg) (v : Word) : (s.setR n v).bar = s.bar := rfl
@[simp] theorem setR_reservation (n : Reg) (v : Word) : (s.setR n v).reservation = s.reservation := rfl
@[simp] theorem setR_decPending (n : Reg) (v : Word) : (s.setR n v).decPending = s.decPending := rfl
@[simp] theorem setR_irq (n : Reg) (v : Word) : (s.setR n v).irq = s.irq := rfl
@[simp] theorem setR_nmiPending (n : Reg) (v : Word) : (s.setR n v).nmiPending = s.nmiPending := rfl
@[simp] theorem setR_nmiAtReset (n : Reg) (v : Word) : (s.setR n v).nmiAtReset = s.nmiAtReset := rfl
@[simp] theorem setR_mebPending (n : Reg) (v : Word) : (s.setR n v).mebPending = s.mebPending := rfl
@[simp] theorem setR_resetAsserted (n : Reg) (v : Word) : (s.setR n v).resetAsserted = s.resetAsserted := rfl
@[simp] theorem setR_checkstop (n : Reg) (v : Word) : (s.setR n v).checkstop = s.checkstop := rfl
@[simp] theorem setR_debugEnabled (n : Reg) (v : Word) : (s.setR n v).debugEnabled = s.debugEnabled := rfl
@[simp] theorem setR_inDebug (n : Reg) (v : Word) : (s.setR n v).inDebug = s.inDebug := rfl
@[simp] theorem setR_freeze (n : Reg) (v : Word) : (s.setR n v).freeze = s.freeze := rfl
@[simp] theorem setR_port (n : Reg) (v : Word) : (s.setR n v).port = s.port := rfl
@[simp] theorem setR_icache (n : Reg) (v : Word) : (s.setR n v).icache = s.icache := rfl
@[simp] theorem setR_stale (n : Reg) (v : Word) : (s.setR n v).stale = s.stale := rfl
@[simp] theorem setR_mem (n : Reg) (v : Word) : (s.setR n v).mem = s.mem := rfl
@[simp] theorem setR_platform (n : Reg) (v : Word) : (s.setR n v).platform = s.platform := rfl
@[simp] theorem setR_events (n : Reg) (v : Word) : (s.setR n v).events = s.events := rfl
@[simp] theorem setR_intrusions (n : Reg) (v : Word) : (s.setR n v).intrusions = s.intrusions := rfl
@[simp] theorem setR_cutShort (n : Reg) (v : Word) : (s.setR n v).cutShort = s.cutShort := rfl
@[simp] theorem setR_freeCount (n : Reg) (v : Word) : (s.setR n v).freeCount = s.freeCount := rfl
@[simp] theorem setR_lbus (n : Reg) (v : Word) : (s.setR n v).lbus = s.lbus := rfl
@[simp] theorem setR_excTaken (n : Reg) (v : Word) : (s.setR n v).excTaken = s.excTaken := rfl

/-! `setF` -/

@[simp] theorem setF_gpr (n : Reg) (v : Dword) : (s.setF n v).gpr = s.gpr := rfl
@[simp] theorem setF_pc (n : Reg) (v : Dword) : (s.setF n v).pc = s.pc := rfl
@[simp] theorem setF_cr (n : Reg) (v : Dword) : (s.setF n v).cr = s.cr := rfl
@[simp] theorem setF_xer (n : Reg) (v : Dword) : (s.setF n v).xer = s.xer := rfl
@[simp] theorem setF_lr (n : Reg) (v : Dword) : (s.setF n v).lr = s.lr := rfl
@[simp] theorem setF_ctr (n : Reg) (v : Dword) : (s.setF n v).ctr = s.ctr := rfl
@[simp] theorem setF_fpscr (n : Reg) (v : Dword) : (s.setF n v).fpscr = s.fpscr := rfl
@[simp] theorem setF_msr (n : Reg) (v : Dword) : (s.setF n v).msr = s.msr := rfl
@[simp] theorem setF_tb (n : Reg) (v : Dword) : (s.setF n v).tb = s.tb := rfl
@[simp] theorem setF_dec (n : Reg) (v : Dword) : (s.setF n v).dec = s.dec := rfl
@[simp] theorem setF_dsisr (n : Reg) (v : Dword) : (s.setF n v).dsisr = s.dsisr := rfl
@[simp] theorem setF_dar (n : Reg) (v : Dword) : (s.setF n v).dar = s.dar := rfl
@[simp] theorem setF_srr0 (n : Reg) (v : Dword) : (s.setF n v).srr0 = s.srr0 := rfl
@[simp] theorem setF_srr1 (n : Reg) (v : Dword) : (s.setF n v).srr1 = s.srr1 := rfl
@[simp] theorem setF_sprg0 (n : Reg) (v : Dword) : (s.setF n v).sprg0 = s.sprg0 := rfl
@[simp] theorem setF_sprg1 (n : Reg) (v : Dword) : (s.setF n v).sprg1 = s.sprg1 := rfl
@[simp] theorem setF_sprg2 (n : Reg) (v : Dword) : (s.setF n v).sprg2 = s.sprg2 := rfl
@[simp] theorem setF_sprg3 (n : Reg) (v : Dword) : (s.setF n v).sprg3 = s.sprg3 := rfl
@[simp] theorem setF_fpecr (n : Reg) (v : Dword) : (s.setF n v).fpecr = s.fpecr := rfl
@[simp] theorem setF_iccst (n : Reg) (v : Dword) : (s.setF n v).iccst = s.iccst := rfl
@[simp] theorem setF_icadr (n : Reg) (v : Dword) : (s.setF n v).icadr = s.icadr := rfl
@[simp] theorem setF_cmpA (n : Reg) (v : Dword) : (s.setF n v).cmpA = s.cmpA := rfl
@[simp] theorem setF_cmpB (n : Reg) (v : Dword) : (s.setF n v).cmpB = s.cmpB := rfl
@[simp] theorem setF_cmpC (n : Reg) (v : Dword) : (s.setF n v).cmpC = s.cmpC := rfl
@[simp] theorem setF_cmpD (n : Reg) (v : Dword) : (s.setF n v).cmpD = s.cmpD := rfl
@[simp] theorem setF_cmpE (n : Reg) (v : Dword) : (s.setF n v).cmpE = s.cmpE := rfl
@[simp] theorem setF_cmpF (n : Reg) (v : Dword) : (s.setF n v).cmpF = s.cmpF := rfl
@[simp] theorem setF_cmpG (n : Reg) (v : Dword) : (s.setF n v).cmpG = s.cmpG := rfl
@[simp] theorem setF_cmpH (n : Reg) (v : Dword) : (s.setF n v).cmpH = s.cmpH := rfl
@[simp] theorem setF_ecr (n : Reg) (v : Dword) : (s.setF n v).ecr = s.ecr := rfl
@[simp] theorem setF_der (n : Reg) (v : Dword) : (s.setF n v).der = s.der := rfl
@[simp] theorem setF_countA (n : Reg) (v : Dword) : (s.setF n v).countA = s.countA := rfl
@[simp] theorem setF_countB (n : Reg) (v : Dword) : (s.setF n v).countB = s.countB := rfl
@[simp] theorem setF_lctrl1 (n : Reg) (v : Dword) : (s.setF n v).lctrl1 = s.lctrl1 := rfl
@[simp] theorem setF_lctrl2 (n : Reg) (v : Dword) : (s.setF n v).lctrl2 = s.lctrl2 := rfl
@[simp] theorem setF_ictrl (n : Reg) (v : Dword) : (s.setF n v).ictrl = s.ictrl := rfl
@[simp] theorem setF_bar (n : Reg) (v : Dword) : (s.setF n v).bar = s.bar := rfl
@[simp] theorem setF_reservation (n : Reg) (v : Dword) : (s.setF n v).reservation = s.reservation := rfl
@[simp] theorem setF_decPending (n : Reg) (v : Dword) : (s.setF n v).decPending = s.decPending := rfl
@[simp] theorem setF_irq (n : Reg) (v : Dword) : (s.setF n v).irq = s.irq := rfl
@[simp] theorem setF_nmiPending (n : Reg) (v : Dword) : (s.setF n v).nmiPending = s.nmiPending := rfl
@[simp] theorem setF_nmiAtReset (n : Reg) (v : Dword) : (s.setF n v).nmiAtReset = s.nmiAtReset := rfl
@[simp] theorem setF_mebPending (n : Reg) (v : Dword) : (s.setF n v).mebPending = s.mebPending := rfl
@[simp] theorem setF_resetAsserted (n : Reg) (v : Dword) : (s.setF n v).resetAsserted = s.resetAsserted := rfl
@[simp] theorem setF_checkstop (n : Reg) (v : Dword) : (s.setF n v).checkstop = s.checkstop := rfl
@[simp] theorem setF_debugEnabled (n : Reg) (v : Dword) : (s.setF n v).debugEnabled = s.debugEnabled := rfl
@[simp] theorem setF_inDebug (n : Reg) (v : Dword) : (s.setF n v).inDebug = s.inDebug := rfl
@[simp] theorem setF_freeze (n : Reg) (v : Dword) : (s.setF n v).freeze = s.freeze := rfl
@[simp] theorem setF_port (n : Reg) (v : Dword) : (s.setF n v).port = s.port := rfl
@[simp] theorem setF_icache (n : Reg) (v : Dword) : (s.setF n v).icache = s.icache := rfl
@[simp] theorem setF_stale (n : Reg) (v : Dword) : (s.setF n v).stale = s.stale := rfl
@[simp] theorem setF_mem (n : Reg) (v : Dword) : (s.setF n v).mem = s.mem := rfl
@[simp] theorem setF_platform (n : Reg) (v : Dword) : (s.setF n v).platform = s.platform := rfl
@[simp] theorem setF_events (n : Reg) (v : Dword) : (s.setF n v).events = s.events := rfl
@[simp] theorem setF_intrusions (n : Reg) (v : Dword) : (s.setF n v).intrusions = s.intrusions := rfl
@[simp] theorem setF_cutShort (n : Reg) (v : Dword) : (s.setF n v).cutShort = s.cutShort := rfl
@[simp] theorem setF_freeCount (n : Reg) (v : Dword) : (s.setF n v).freeCount = s.freeCount := rfl
@[simp] theorem setF_lbus (n : Reg) (v : Dword) : (s.setF n v).lbus = s.lbus := rfl
@[simp] theorem setF_excTaken (n : Reg) (v : Dword) : (s.setF n v).excTaken = s.excTaken := rfl

/-! `advance` -/

@[simp] theorem advance_gpr : s.advance.gpr = s.gpr := rfl
@[simp] theorem advance_fpr : s.advance.fpr = s.fpr := rfl
@[simp] theorem advance_cr : s.advance.cr = s.cr := rfl
@[simp] theorem advance_xer : s.advance.xer = s.xer := rfl
@[simp] theorem advance_lr : s.advance.lr = s.lr := rfl
@[simp] theorem advance_ctr : s.advance.ctr = s.ctr := rfl
@[simp] theorem advance_fpscr : s.advance.fpscr = s.fpscr := rfl
@[simp] theorem advance_msr : s.advance.msr = s.msr := rfl
@[simp] theorem advance_tb : s.advance.tb = s.tb := rfl
@[simp] theorem advance_dec : s.advance.dec = s.dec := rfl
@[simp] theorem advance_dsisr : s.advance.dsisr = s.dsisr := rfl
@[simp] theorem advance_dar : s.advance.dar = s.dar := rfl
@[simp] theorem advance_srr0 : s.advance.srr0 = s.srr0 := rfl
@[simp] theorem advance_srr1 : s.advance.srr1 = s.srr1 := rfl
@[simp] theorem advance_sprg0 : s.advance.sprg0 = s.sprg0 := rfl
@[simp] theorem advance_sprg1 : s.advance.sprg1 = s.sprg1 := rfl
@[simp] theorem advance_sprg2 : s.advance.sprg2 = s.sprg2 := rfl
@[simp] theorem advance_sprg3 : s.advance.sprg3 = s.sprg3 := rfl
@[simp] theorem advance_fpecr : s.advance.fpecr = s.fpecr := rfl
@[simp] theorem advance_iccst : s.advance.iccst = s.iccst := rfl
@[simp] theorem advance_icadr : s.advance.icadr = s.icadr := rfl
@[simp] theorem advance_cmpA : s.advance.cmpA = s.cmpA := rfl
@[simp] theorem advance_cmpB : s.advance.cmpB = s.cmpB := rfl
@[simp] theorem advance_cmpC : s.advance.cmpC = s.cmpC := rfl
@[simp] theorem advance_cmpD : s.advance.cmpD = s.cmpD := rfl
@[simp] theorem advance_cmpE : s.advance.cmpE = s.cmpE := rfl
@[simp] theorem advance_cmpF : s.advance.cmpF = s.cmpF := rfl
@[simp] theorem advance_cmpG : s.advance.cmpG = s.cmpG := rfl
@[simp] theorem advance_cmpH : s.advance.cmpH = s.cmpH := rfl
@[simp] theorem advance_ecr : s.advance.ecr = s.ecr := rfl
@[simp] theorem advance_der : s.advance.der = s.der := rfl
@[simp] theorem advance_countA : s.advance.countA = s.countA := rfl
@[simp] theorem advance_countB : s.advance.countB = s.countB := rfl
@[simp] theorem advance_lctrl1 : s.advance.lctrl1 = s.lctrl1 := rfl
@[simp] theorem advance_lctrl2 : s.advance.lctrl2 = s.lctrl2 := rfl
@[simp] theorem advance_ictrl : s.advance.ictrl = s.ictrl := rfl
@[simp] theorem advance_bar : s.advance.bar = s.bar := rfl
@[simp] theorem advance_reservation : s.advance.reservation = s.reservation := rfl
@[simp] theorem advance_decPending : s.advance.decPending = s.decPending := rfl
@[simp] theorem advance_irq : s.advance.irq = s.irq := rfl
@[simp] theorem advance_nmiPending : s.advance.nmiPending = s.nmiPending := rfl
@[simp] theorem advance_nmiAtReset : s.advance.nmiAtReset = s.nmiAtReset := rfl
@[simp] theorem advance_mebPending : s.advance.mebPending = s.mebPending := rfl
@[simp] theorem advance_resetAsserted : s.advance.resetAsserted = s.resetAsserted := rfl
@[simp] theorem advance_checkstop : s.advance.checkstop = s.checkstop := rfl
@[simp] theorem advance_debugEnabled : s.advance.debugEnabled = s.debugEnabled := rfl
@[simp] theorem advance_inDebug : s.advance.inDebug = s.inDebug := rfl
@[simp] theorem advance_freeze : s.advance.freeze = s.freeze := rfl
@[simp] theorem advance_port : s.advance.port = s.port := rfl
@[simp] theorem advance_icache : s.advance.icache = s.icache := rfl
@[simp] theorem advance_stale : s.advance.stale = s.stale := rfl
@[simp] theorem advance_mem : s.advance.mem = s.mem := rfl
@[simp] theorem advance_platform : s.advance.platform = s.platform := rfl
@[simp] theorem advance_events : s.advance.events = s.events := rfl
@[simp] theorem advance_intrusions : s.advance.intrusions = s.intrusions := rfl
@[simp] theorem advance_cutShort : s.advance.cutShort = s.cutShort := rfl
@[simp] theorem advance_freeCount : s.advance.freeCount = s.freeCount := rfl
@[simp] theorem advance_lbus : s.advance.lbus = s.lbus := rfl
@[simp] theorem advance_excTaken : s.advance.excTaken = s.excTaken := rfl

/-! `fresh` -/

@[simp] theorem fresh_gpr : s.fresh.gpr = s.gpr := rfl
@[simp] theorem fresh_fpr : s.fresh.fpr = s.fpr := rfl
@[simp] theorem fresh_pc : s.fresh.pc = s.pc := rfl
@[simp] theorem fresh_cr : s.fresh.cr = s.cr := rfl
@[simp] theorem fresh_xer : s.fresh.xer = s.xer := rfl
@[simp] theorem fresh_lr : s.fresh.lr = s.lr := rfl
@[simp] theorem fresh_ctr : s.fresh.ctr = s.ctr := rfl
@[simp] theorem fresh_fpscr : s.fresh.fpscr = s.fpscr := rfl
@[simp] theorem fresh_msr : s.fresh.msr = s.msr := rfl
@[simp] theorem fresh_tb : s.fresh.tb = s.tb := rfl
@[simp] theorem fresh_dec : s.fresh.dec = s.dec := rfl
@[simp] theorem fresh_dsisr : s.fresh.dsisr = s.dsisr := rfl
@[simp] theorem fresh_dar : s.fresh.dar = s.dar := rfl
@[simp] theorem fresh_srr0 : s.fresh.srr0 = s.srr0 := rfl
@[simp] theorem fresh_srr1 : s.fresh.srr1 = s.srr1 := rfl
@[simp] theorem fresh_sprg0 : s.fresh.sprg0 = s.sprg0 := rfl
@[simp] theorem fresh_sprg1 : s.fresh.sprg1 = s.sprg1 := rfl
@[simp] theorem fresh_sprg2 : s.fresh.sprg2 = s.sprg2 := rfl
@[simp] theorem fresh_sprg3 : s.fresh.sprg3 = s.sprg3 := rfl
@[simp] theorem fresh_fpecr : s.fresh.fpecr = s.fpecr := rfl
@[simp] theorem fresh_iccst : s.fresh.iccst = s.iccst := rfl
@[simp] theorem fresh_icadr : s.fresh.icadr = s.icadr := rfl
@[simp] theorem fresh_cmpA : s.fresh.cmpA = s.cmpA := rfl
@[simp] theorem fresh_cmpB : s.fresh.cmpB = s.cmpB := rfl
@[simp] theorem fresh_cmpC : s.fresh.cmpC = s.cmpC := rfl
@[simp] theorem fresh_cmpD : s.fresh.cmpD = s.cmpD := rfl
@[simp] theorem fresh_cmpE : s.fresh.cmpE = s.cmpE := rfl
@[simp] theorem fresh_cmpF : s.fresh.cmpF = s.cmpF := rfl
@[simp] theorem fresh_cmpG : s.fresh.cmpG = s.cmpG := rfl
@[simp] theorem fresh_cmpH : s.fresh.cmpH = s.cmpH := rfl
@[simp] theorem fresh_ecr : s.fresh.ecr = s.ecr := rfl
@[simp] theorem fresh_der : s.fresh.der = s.der := rfl
@[simp] theorem fresh_countA : s.fresh.countA = s.countA := rfl
@[simp] theorem fresh_countB : s.fresh.countB = s.countB := rfl
@[simp] theorem fresh_lctrl1 : s.fresh.lctrl1 = s.lctrl1 := rfl
@[simp] theorem fresh_lctrl2 : s.fresh.lctrl2 = s.lctrl2 := rfl
@[simp] theorem fresh_ictrl : s.fresh.ictrl = s.ictrl := rfl
@[simp] theorem fresh_bar : s.fresh.bar = s.bar := rfl
@[simp] theorem fresh_reservation : s.fresh.reservation = s.reservation := rfl
@[simp] theorem fresh_decPending : s.fresh.decPending = s.decPending := rfl
@[simp] theorem fresh_irq : s.fresh.irq = s.irq := rfl
@[simp] theorem fresh_nmiPending : s.fresh.nmiPending = s.nmiPending := rfl
@[simp] theorem fresh_nmiAtReset : s.fresh.nmiAtReset = s.nmiAtReset := rfl
@[simp] theorem fresh_mebPending : s.fresh.mebPending = s.mebPending := rfl
@[simp] theorem fresh_resetAsserted : s.fresh.resetAsserted = s.resetAsserted := rfl
@[simp] theorem fresh_checkstop : s.fresh.checkstop = s.checkstop := rfl
@[simp] theorem fresh_debugEnabled : s.fresh.debugEnabled = s.debugEnabled := rfl
@[simp] theorem fresh_inDebug : s.fresh.inDebug = s.inDebug := rfl
@[simp] theorem fresh_freeze : s.fresh.freeze = s.freeze := rfl
@[simp] theorem fresh_port : s.fresh.port = s.port := rfl
@[simp] theorem fresh_icache : s.fresh.icache = s.icache := rfl
@[simp] theorem fresh_stale : s.fresh.stale = s.stale := rfl
@[simp] theorem fresh_mem : s.fresh.mem = s.mem := rfl
@[simp] theorem fresh_platform : s.fresh.platform = s.platform := rfl
@[simp] theorem fresh_events : s.fresh.events = s.events := rfl
@[simp] theorem fresh_intrusions : s.fresh.intrusions = s.intrusions := rfl
@[simp] theorem fresh_cutShort : s.fresh.cutShort = s.cutShort := rfl
@[simp] theorem fresh_freeCount : s.fresh.freeCount = s.freeCount := rfl

/-! `setCr` -/

@[simp] theorem setCr_gpr (f : BitVec 3) (v : BitVec 4) : (s.setCr f v).gpr = s.gpr := rfl
@[simp] theorem setCr_fpr (f : BitVec 3) (v : BitVec 4) : (s.setCr f v).fpr = s.fpr := rfl
@[simp] theorem setCr_pc (f : BitVec 3) (v : BitVec 4) : (s.setCr f v).pc = s.pc := rfl
@[simp] theorem setCr_xer (f : BitVec 3) (v : BitVec 4) : (s.setCr f v).xer = s.xer := rfl
@[simp] theorem setCr_lr (f : BitVec 3) (v : BitVec 4) : (s.setCr f v).lr = s.lr := rfl
@[simp] theorem setCr_ctr (f : BitVec 3) (v : BitVec 4) : (s.setCr f v).ctr = s.ctr := rfl
@[simp] theorem setCr_fpscr (f : BitVec 3) (v : BitVec 4) : (s.setCr f v).fpscr = s.fpscr := rfl
@[simp] theorem setCr_msr (f : BitVec 3) (v : BitVec 4) : (s.setCr f v).msr = s.msr := rfl
@[simp] theorem setCr_tb (f : BitVec 3) (v : BitVec 4) : (s.setCr f v).tb = s.tb := rfl
@[simp] theorem setCr_dec (f : BitVec 3) (v : BitVec 4) : (s.setCr f v).dec = s.dec := rfl
@[simp] theorem setCr_dsisr (f : BitVec 3) (v : BitVec 4) : (s.setCr f v).dsisr = s.dsisr := rfl
@[simp] theorem setCr_dar (f : BitVec 3) (v : BitVec 4) : (s.setCr f v).dar = s.dar := rfl
@[simp] theorem setCr_srr0 (f : BitVec 3) (v : BitVec 4) : (s.setCr f v).srr0 = s.srr0 := rfl
@[simp] theorem setCr_srr1 (f : BitVec 3) (v : BitVec 4) : (s.setCr f v).srr1 = s.srr1 := rfl
@[simp] theorem setCr_sprg0 (f : BitVec 3) (v : BitVec 4) : (s.setCr f v).sprg0 = s.sprg0 := rfl
@[simp] theorem setCr_sprg1 (f : BitVec 3) (v : BitVec 4) : (s.setCr f v).sprg1 = s.sprg1 := rfl
@[simp] theorem setCr_sprg2 (f : BitVec 3) (v : BitVec 4) : (s.setCr f v).sprg2 = s.sprg2 := rfl
@[simp] theorem setCr_sprg3 (f : BitVec 3) (v : BitVec 4) : (s.setCr f v).sprg3 = s.sprg3 := rfl
@[simp] theorem setCr_fpecr (f : BitVec 3) (v : BitVec 4) : (s.setCr f v).fpecr = s.fpecr := rfl
@[simp] theorem setCr_iccst (f : BitVec 3) (v : BitVec 4) : (s.setCr f v).iccst = s.iccst := rfl
@[simp] theorem setCr_icadr (f : BitVec 3) (v : BitVec 4) : (s.setCr f v).icadr = s.icadr := rfl
@[simp] theorem setCr_cmpA (f : BitVec 3) (v : BitVec 4) : (s.setCr f v).cmpA = s.cmpA := rfl
@[simp] theorem setCr_cmpB (f : BitVec 3) (v : BitVec 4) : (s.setCr f v).cmpB = s.cmpB := rfl
@[simp] theorem setCr_cmpC (f : BitVec 3) (v : BitVec 4) : (s.setCr f v).cmpC = s.cmpC := rfl
@[simp] theorem setCr_cmpD (f : BitVec 3) (v : BitVec 4) : (s.setCr f v).cmpD = s.cmpD := rfl
@[simp] theorem setCr_cmpE (f : BitVec 3) (v : BitVec 4) : (s.setCr f v).cmpE = s.cmpE := rfl
@[simp] theorem setCr_cmpF (f : BitVec 3) (v : BitVec 4) : (s.setCr f v).cmpF = s.cmpF := rfl
@[simp] theorem setCr_cmpG (f : BitVec 3) (v : BitVec 4) : (s.setCr f v).cmpG = s.cmpG := rfl
@[simp] theorem setCr_cmpH (f : BitVec 3) (v : BitVec 4) : (s.setCr f v).cmpH = s.cmpH := rfl
@[simp] theorem setCr_ecr (f : BitVec 3) (v : BitVec 4) : (s.setCr f v).ecr = s.ecr := rfl
@[simp] theorem setCr_der (f : BitVec 3) (v : BitVec 4) : (s.setCr f v).der = s.der := rfl
@[simp] theorem setCr_countA (f : BitVec 3) (v : BitVec 4) : (s.setCr f v).countA = s.countA := rfl
@[simp] theorem setCr_countB (f : BitVec 3) (v : BitVec 4) : (s.setCr f v).countB = s.countB := rfl
@[simp] theorem setCr_lctrl1 (f : BitVec 3) (v : BitVec 4) : (s.setCr f v).lctrl1 = s.lctrl1 := rfl
@[simp] theorem setCr_lctrl2 (f : BitVec 3) (v : BitVec 4) : (s.setCr f v).lctrl2 = s.lctrl2 := rfl
@[simp] theorem setCr_ictrl (f : BitVec 3) (v : BitVec 4) : (s.setCr f v).ictrl = s.ictrl := rfl
@[simp] theorem setCr_bar (f : BitVec 3) (v : BitVec 4) : (s.setCr f v).bar = s.bar := rfl
@[simp] theorem setCr_reservation (f : BitVec 3) (v : BitVec 4) : (s.setCr f v).reservation = s.reservation := rfl
@[simp] theorem setCr_decPending (f : BitVec 3) (v : BitVec 4) : (s.setCr f v).decPending = s.decPending := rfl
@[simp] theorem setCr_irq (f : BitVec 3) (v : BitVec 4) : (s.setCr f v).irq = s.irq := rfl
@[simp] theorem setCr_nmiPending (f : BitVec 3) (v : BitVec 4) : (s.setCr f v).nmiPending = s.nmiPending := rfl
@[simp] theorem setCr_nmiAtReset (f : BitVec 3) (v : BitVec 4) : (s.setCr f v).nmiAtReset = s.nmiAtReset := rfl
@[simp] theorem setCr_mebPending (f : BitVec 3) (v : BitVec 4) : (s.setCr f v).mebPending = s.mebPending := rfl
@[simp] theorem setCr_resetAsserted (f : BitVec 3) (v : BitVec 4) : (s.setCr f v).resetAsserted = s.resetAsserted := rfl
@[simp] theorem setCr_checkstop (f : BitVec 3) (v : BitVec 4) : (s.setCr f v).checkstop = s.checkstop := rfl
@[simp] theorem setCr_debugEnabled (f : BitVec 3) (v : BitVec 4) : (s.setCr f v).debugEnabled = s.debugEnabled := rfl
@[simp] theorem setCr_inDebug (f : BitVec 3) (v : BitVec 4) : (s.setCr f v).inDebug = s.inDebug := rfl
@[simp] theorem setCr_freeze (f : BitVec 3) (v : BitVec 4) : (s.setCr f v).freeze = s.freeze := rfl
@[simp] theorem setCr_port (f : BitVec 3) (v : BitVec 4) : (s.setCr f v).port = s.port := rfl
@[simp] theorem setCr_icache (f : BitVec 3) (v : BitVec 4) : (s.setCr f v).icache = s.icache := rfl
@[simp] theorem setCr_stale (f : BitVec 3) (v : BitVec 4) : (s.setCr f v).stale = s.stale := rfl
@[simp] theorem setCr_mem (f : BitVec 3) (v : BitVec 4) : (s.setCr f v).mem = s.mem := rfl
@[simp] theorem setCr_platform (f : BitVec 3) (v : BitVec 4) : (s.setCr f v).platform = s.platform := rfl
@[simp] theorem setCr_events (f : BitVec 3) (v : BitVec 4) : (s.setCr f v).events = s.events := rfl
@[simp] theorem setCr_intrusions (f : BitVec 3) (v : BitVec 4) : (s.setCr f v).intrusions = s.intrusions := rfl
@[simp] theorem setCr_cutShort (f : BitVec 3) (v : BitVec 4) : (s.setCr f v).cutShort = s.cutShort := rfl
@[simp] theorem setCr_freeCount (f : BitVec 3) (v : BitVec 4) : (s.setCr f v).freeCount = s.freeCount := rfl
@[simp] theorem setCr_lbus (f : BitVec 3) (v : BitVec 4) : (s.setCr f v).lbus = s.lbus := rfl
@[simp] theorem setCr_excTaken (f : BitVec 3) (v : BitVec 4) : (s.setCr f v).excTaken = s.excTaken := rfl

/-! `setCA` -/

@[simp] theorem setCA_gpr (c : Bool) : (s.setCA c).gpr = s.gpr := rfl
@[simp] theorem setCA_fpr (c : Bool) : (s.setCA c).fpr = s.fpr := rfl
@[simp] theorem setCA_pc (c : Bool) : (s.setCA c).pc = s.pc := rfl
@[simp] theorem setCA_cr (c : Bool) : (s.setCA c).cr = s.cr := rfl
@[simp] theorem setCA_lr (c : Bool) : (s.setCA c).lr = s.lr := rfl
@[simp] theorem setCA_ctr (c : Bool) : (s.setCA c).ctr = s.ctr := rfl
@[simp] theorem setCA_fpscr (c : Bool) : (s.setCA c).fpscr = s.fpscr := rfl
@[simp] theorem setCA_msr (c : Bool) : (s.setCA c).msr = s.msr := rfl
@[simp] theorem setCA_tb (c : Bool) : (s.setCA c).tb = s.tb := rfl
@[simp] theorem setCA_dec (c : Bool) : (s.setCA c).dec = s.dec := rfl
@[simp] theorem setCA_dsisr (c : Bool) : (s.setCA c).dsisr = s.dsisr := rfl
@[simp] theorem setCA_dar (c : Bool) : (s.setCA c).dar = s.dar := rfl
@[simp] theorem setCA_srr0 (c : Bool) : (s.setCA c).srr0 = s.srr0 := rfl
@[simp] theorem setCA_srr1 (c : Bool) : (s.setCA c).srr1 = s.srr1 := rfl
@[simp] theorem setCA_sprg0 (c : Bool) : (s.setCA c).sprg0 = s.sprg0 := rfl
@[simp] theorem setCA_sprg1 (c : Bool) : (s.setCA c).sprg1 = s.sprg1 := rfl
@[simp] theorem setCA_sprg2 (c : Bool) : (s.setCA c).sprg2 = s.sprg2 := rfl
@[simp] theorem setCA_sprg3 (c : Bool) : (s.setCA c).sprg3 = s.sprg3 := rfl
@[simp] theorem setCA_fpecr (c : Bool) : (s.setCA c).fpecr = s.fpecr := rfl
@[simp] theorem setCA_iccst (c : Bool) : (s.setCA c).iccst = s.iccst := rfl
@[simp] theorem setCA_icadr (c : Bool) : (s.setCA c).icadr = s.icadr := rfl
@[simp] theorem setCA_cmpA (c : Bool) : (s.setCA c).cmpA = s.cmpA := rfl
@[simp] theorem setCA_cmpB (c : Bool) : (s.setCA c).cmpB = s.cmpB := rfl
@[simp] theorem setCA_cmpC (c : Bool) : (s.setCA c).cmpC = s.cmpC := rfl
@[simp] theorem setCA_cmpD (c : Bool) : (s.setCA c).cmpD = s.cmpD := rfl
@[simp] theorem setCA_cmpE (c : Bool) : (s.setCA c).cmpE = s.cmpE := rfl
@[simp] theorem setCA_cmpF (c : Bool) : (s.setCA c).cmpF = s.cmpF := rfl
@[simp] theorem setCA_cmpG (c : Bool) : (s.setCA c).cmpG = s.cmpG := rfl
@[simp] theorem setCA_cmpH (c : Bool) : (s.setCA c).cmpH = s.cmpH := rfl
@[simp] theorem setCA_ecr (c : Bool) : (s.setCA c).ecr = s.ecr := rfl
@[simp] theorem setCA_der (c : Bool) : (s.setCA c).der = s.der := rfl
@[simp] theorem setCA_countA (c : Bool) : (s.setCA c).countA = s.countA := rfl
@[simp] theorem setCA_countB (c : Bool) : (s.setCA c).countB = s.countB := rfl
@[simp] theorem setCA_lctrl1 (c : Bool) : (s.setCA c).lctrl1 = s.lctrl1 := rfl
@[simp] theorem setCA_lctrl2 (c : Bool) : (s.setCA c).lctrl2 = s.lctrl2 := rfl
@[simp] theorem setCA_ictrl (c : Bool) : (s.setCA c).ictrl = s.ictrl := rfl
@[simp] theorem setCA_bar (c : Bool) : (s.setCA c).bar = s.bar := rfl
@[simp] theorem setCA_reservation (c : Bool) : (s.setCA c).reservation = s.reservation := rfl
@[simp] theorem setCA_decPending (c : Bool) : (s.setCA c).decPending = s.decPending := rfl
@[simp] theorem setCA_irq (c : Bool) : (s.setCA c).irq = s.irq := rfl
@[simp] theorem setCA_nmiPending (c : Bool) : (s.setCA c).nmiPending = s.nmiPending := rfl
@[simp] theorem setCA_nmiAtReset (c : Bool) : (s.setCA c).nmiAtReset = s.nmiAtReset := rfl
@[simp] theorem setCA_mebPending (c : Bool) : (s.setCA c).mebPending = s.mebPending := rfl
@[simp] theorem setCA_resetAsserted (c : Bool) : (s.setCA c).resetAsserted = s.resetAsserted := rfl
@[simp] theorem setCA_checkstop (c : Bool) : (s.setCA c).checkstop = s.checkstop := rfl
@[simp] theorem setCA_debugEnabled (c : Bool) : (s.setCA c).debugEnabled = s.debugEnabled := rfl
@[simp] theorem setCA_inDebug (c : Bool) : (s.setCA c).inDebug = s.inDebug := rfl
@[simp] theorem setCA_freeze (c : Bool) : (s.setCA c).freeze = s.freeze := rfl
@[simp] theorem setCA_port (c : Bool) : (s.setCA c).port = s.port := rfl
@[simp] theorem setCA_icache (c : Bool) : (s.setCA c).icache = s.icache := rfl
@[simp] theorem setCA_stale (c : Bool) : (s.setCA c).stale = s.stale := rfl
@[simp] theorem setCA_mem (c : Bool) : (s.setCA c).mem = s.mem := rfl
@[simp] theorem setCA_platform (c : Bool) : (s.setCA c).platform = s.platform := rfl
@[simp] theorem setCA_events (c : Bool) : (s.setCA c).events = s.events := rfl
@[simp] theorem setCA_intrusions (c : Bool) : (s.setCA c).intrusions = s.intrusions := rfl
@[simp] theorem setCA_cutShort (c : Bool) : (s.setCA c).cutShort = s.cutShort := rfl
@[simp] theorem setCA_freeCount (c : Bool) : (s.setCA c).freeCount = s.freeCount := rfl
@[simp] theorem setCA_lbus (c : Bool) : (s.setCA c).lbus = s.lbus := rfl
@[simp] theorem setCA_excTaken (c : Bool) : (s.setCA c).excTaken = s.excTaken := rfl

/-! `setOV` -/

@[simp] theorem setOV_gpr (c : Bool) : (s.setOV c).gpr = s.gpr := rfl
@[simp] theorem setOV_fpr (c : Bool) : (s.setOV c).fpr = s.fpr := rfl
@[simp] theorem setOV_pc (c : Bool) : (s.setOV c).pc = s.pc := rfl
@[simp] theorem setOV_cr (c : Bool) : (s.setOV c).cr = s.cr := rfl
@[simp] theorem setOV_lr (c : Bool) : (s.setOV c).lr = s.lr := rfl
@[simp] theorem setOV_ctr (c : Bool) : (s.setOV c).ctr = s.ctr := rfl
@[simp] theorem setOV_fpscr (c : Bool) : (s.setOV c).fpscr = s.fpscr := rfl
@[simp] theorem setOV_msr (c : Bool) : (s.setOV c).msr = s.msr := rfl
@[simp] theorem setOV_tb (c : Bool) : (s.setOV c).tb = s.tb := rfl
@[simp] theorem setOV_dec (c : Bool) : (s.setOV c).dec = s.dec := rfl
@[simp] theorem setOV_dsisr (c : Bool) : (s.setOV c).dsisr = s.dsisr := rfl
@[simp] theorem setOV_dar (c : Bool) : (s.setOV c).dar = s.dar := rfl
@[simp] theorem setOV_srr0 (c : Bool) : (s.setOV c).srr0 = s.srr0 := rfl
@[simp] theorem setOV_srr1 (c : Bool) : (s.setOV c).srr1 = s.srr1 := rfl
@[simp] theorem setOV_sprg0 (c : Bool) : (s.setOV c).sprg0 = s.sprg0 := rfl
@[simp] theorem setOV_sprg1 (c : Bool) : (s.setOV c).sprg1 = s.sprg1 := rfl
@[simp] theorem setOV_sprg2 (c : Bool) : (s.setOV c).sprg2 = s.sprg2 := rfl
@[simp] theorem setOV_sprg3 (c : Bool) : (s.setOV c).sprg3 = s.sprg3 := rfl
@[simp] theorem setOV_fpecr (c : Bool) : (s.setOV c).fpecr = s.fpecr := rfl
@[simp] theorem setOV_iccst (c : Bool) : (s.setOV c).iccst = s.iccst := rfl
@[simp] theorem setOV_icadr (c : Bool) : (s.setOV c).icadr = s.icadr := rfl
@[simp] theorem setOV_cmpA (c : Bool) : (s.setOV c).cmpA = s.cmpA := rfl
@[simp] theorem setOV_cmpB (c : Bool) : (s.setOV c).cmpB = s.cmpB := rfl
@[simp] theorem setOV_cmpC (c : Bool) : (s.setOV c).cmpC = s.cmpC := rfl
@[simp] theorem setOV_cmpD (c : Bool) : (s.setOV c).cmpD = s.cmpD := rfl
@[simp] theorem setOV_cmpE (c : Bool) : (s.setOV c).cmpE = s.cmpE := rfl
@[simp] theorem setOV_cmpF (c : Bool) : (s.setOV c).cmpF = s.cmpF := rfl
@[simp] theorem setOV_cmpG (c : Bool) : (s.setOV c).cmpG = s.cmpG := rfl
@[simp] theorem setOV_cmpH (c : Bool) : (s.setOV c).cmpH = s.cmpH := rfl
@[simp] theorem setOV_ecr (c : Bool) : (s.setOV c).ecr = s.ecr := rfl
@[simp] theorem setOV_der (c : Bool) : (s.setOV c).der = s.der := rfl
@[simp] theorem setOV_countA (c : Bool) : (s.setOV c).countA = s.countA := rfl
@[simp] theorem setOV_countB (c : Bool) : (s.setOV c).countB = s.countB := rfl
@[simp] theorem setOV_lctrl1 (c : Bool) : (s.setOV c).lctrl1 = s.lctrl1 := rfl
@[simp] theorem setOV_lctrl2 (c : Bool) : (s.setOV c).lctrl2 = s.lctrl2 := rfl
@[simp] theorem setOV_ictrl (c : Bool) : (s.setOV c).ictrl = s.ictrl := rfl
@[simp] theorem setOV_bar (c : Bool) : (s.setOV c).bar = s.bar := rfl
@[simp] theorem setOV_reservation (c : Bool) : (s.setOV c).reservation = s.reservation := rfl
@[simp] theorem setOV_decPending (c : Bool) : (s.setOV c).decPending = s.decPending := rfl
@[simp] theorem setOV_irq (c : Bool) : (s.setOV c).irq = s.irq := rfl
@[simp] theorem setOV_nmiPending (c : Bool) : (s.setOV c).nmiPending = s.nmiPending := rfl
@[simp] theorem setOV_nmiAtReset (c : Bool) : (s.setOV c).nmiAtReset = s.nmiAtReset := rfl
@[simp] theorem setOV_mebPending (c : Bool) : (s.setOV c).mebPending = s.mebPending := rfl
@[simp] theorem setOV_resetAsserted (c : Bool) : (s.setOV c).resetAsserted = s.resetAsserted := rfl
@[simp] theorem setOV_checkstop (c : Bool) : (s.setOV c).checkstop = s.checkstop := rfl
@[simp] theorem setOV_debugEnabled (c : Bool) : (s.setOV c).debugEnabled = s.debugEnabled := rfl
@[simp] theorem setOV_inDebug (c : Bool) : (s.setOV c).inDebug = s.inDebug := rfl
@[simp] theorem setOV_freeze (c : Bool) : (s.setOV c).freeze = s.freeze := rfl
@[simp] theorem setOV_port (c : Bool) : (s.setOV c).port = s.port := rfl
@[simp] theorem setOV_icache (c : Bool) : (s.setOV c).icache = s.icache := rfl
@[simp] theorem setOV_stale (c : Bool) : (s.setOV c).stale = s.stale := rfl
@[simp] theorem setOV_mem (c : Bool) : (s.setOV c).mem = s.mem := rfl
@[simp] theorem setOV_platform (c : Bool) : (s.setOV c).platform = s.platform := rfl
@[simp] theorem setOV_events (c : Bool) : (s.setOV c).events = s.events := rfl
@[simp] theorem setOV_intrusions (c : Bool) : (s.setOV c).intrusions = s.intrusions := rfl
@[simp] theorem setOV_cutShort (c : Bool) : (s.setOV c).cutShort = s.cutShort := rfl
@[simp] theorem setOV_freeCount (c : Bool) : (s.setOV c).freeCount = s.freeCount := rfl
@[simp] theorem setOV_lbus (c : Bool) : (s.setOV c).lbus = s.lbus := rfl
@[simp] theorem setOV_excTaken (c : Bool) : (s.setOV c).excTaken = s.excTaken := rfl

/-! `setOVIf` -/

@[simp] theorem setOVIf_gpr (oe c : Bool) : (s.setOVIf oe c).gpr = s.gpr := by cases oe <;> rfl
@[simp] theorem setOVIf_fpr (oe c : Bool) : (s.setOVIf oe c).fpr = s.fpr := by cases oe <;> rfl
@[simp] theorem setOVIf_pc (oe c : Bool) : (s.setOVIf oe c).pc = s.pc := by cases oe <;> rfl
@[simp] theorem setOVIf_cr (oe c : Bool) : (s.setOVIf oe c).cr = s.cr := by cases oe <;> rfl
@[simp] theorem setOVIf_lr (oe c : Bool) : (s.setOVIf oe c).lr = s.lr := by cases oe <;> rfl
@[simp] theorem setOVIf_ctr (oe c : Bool) : (s.setOVIf oe c).ctr = s.ctr := by cases oe <;> rfl
@[simp] theorem setOVIf_fpscr (oe c : Bool) : (s.setOVIf oe c).fpscr = s.fpscr := by cases oe <;> rfl
@[simp] theorem setOVIf_msr (oe c : Bool) : (s.setOVIf oe c).msr = s.msr := by cases oe <;> rfl
@[simp] theorem setOVIf_tb (oe c : Bool) : (s.setOVIf oe c).tb = s.tb := by cases oe <;> rfl
@[simp] theorem setOVIf_dec (oe c : Bool) : (s.setOVIf oe c).dec = s.dec := by cases oe <;> rfl
@[simp] theorem setOVIf_dsisr (oe c : Bool) : (s.setOVIf oe c).dsisr = s.dsisr := by cases oe <;> rfl
@[simp] theorem setOVIf_dar (oe c : Bool) : (s.setOVIf oe c).dar = s.dar := by cases oe <;> rfl
@[simp] theorem setOVIf_srr0 (oe c : Bool) : (s.setOVIf oe c).srr0 = s.srr0 := by cases oe <;> rfl
@[simp] theorem setOVIf_srr1 (oe c : Bool) : (s.setOVIf oe c).srr1 = s.srr1 := by cases oe <;> rfl
@[simp] theorem setOVIf_sprg0 (oe c : Bool) : (s.setOVIf oe c).sprg0 = s.sprg0 := by cases oe <;> rfl
@[simp] theorem setOVIf_sprg1 (oe c : Bool) : (s.setOVIf oe c).sprg1 = s.sprg1 := by cases oe <;> rfl
@[simp] theorem setOVIf_sprg2 (oe c : Bool) : (s.setOVIf oe c).sprg2 = s.sprg2 := by cases oe <;> rfl
@[simp] theorem setOVIf_sprg3 (oe c : Bool) : (s.setOVIf oe c).sprg3 = s.sprg3 := by cases oe <;> rfl
@[simp] theorem setOVIf_fpecr (oe c : Bool) : (s.setOVIf oe c).fpecr = s.fpecr := by cases oe <;> rfl
@[simp] theorem setOVIf_iccst (oe c : Bool) : (s.setOVIf oe c).iccst = s.iccst := by cases oe <;> rfl
@[simp] theorem setOVIf_icadr (oe c : Bool) : (s.setOVIf oe c).icadr = s.icadr := by cases oe <;> rfl
@[simp] theorem setOVIf_cmpA (oe c : Bool) : (s.setOVIf oe c).cmpA = s.cmpA := by cases oe <;> rfl
@[simp] theorem setOVIf_cmpB (oe c : Bool) : (s.setOVIf oe c).cmpB = s.cmpB := by cases oe <;> rfl
@[simp] theorem setOVIf_cmpC (oe c : Bool) : (s.setOVIf oe c).cmpC = s.cmpC := by cases oe <;> rfl
@[simp] theorem setOVIf_cmpD (oe c : Bool) : (s.setOVIf oe c).cmpD = s.cmpD := by cases oe <;> rfl
@[simp] theorem setOVIf_cmpE (oe c : Bool) : (s.setOVIf oe c).cmpE = s.cmpE := by cases oe <;> rfl
@[simp] theorem setOVIf_cmpF (oe c : Bool) : (s.setOVIf oe c).cmpF = s.cmpF := by cases oe <;> rfl
@[simp] theorem setOVIf_cmpG (oe c : Bool) : (s.setOVIf oe c).cmpG = s.cmpG := by cases oe <;> rfl
@[simp] theorem setOVIf_cmpH (oe c : Bool) : (s.setOVIf oe c).cmpH = s.cmpH := by cases oe <;> rfl
@[simp] theorem setOVIf_ecr (oe c : Bool) : (s.setOVIf oe c).ecr = s.ecr := by cases oe <;> rfl
@[simp] theorem setOVIf_der (oe c : Bool) : (s.setOVIf oe c).der = s.der := by cases oe <;> rfl
@[simp] theorem setOVIf_countA (oe c : Bool) : (s.setOVIf oe c).countA = s.countA := by cases oe <;> rfl
@[simp] theorem setOVIf_countB (oe c : Bool) : (s.setOVIf oe c).countB = s.countB := by cases oe <;> rfl
@[simp] theorem setOVIf_lctrl1 (oe c : Bool) : (s.setOVIf oe c).lctrl1 = s.lctrl1 := by cases oe <;> rfl
@[simp] theorem setOVIf_lctrl2 (oe c : Bool) : (s.setOVIf oe c).lctrl2 = s.lctrl2 := by cases oe <;> rfl
@[simp] theorem setOVIf_ictrl (oe c : Bool) : (s.setOVIf oe c).ictrl = s.ictrl := by cases oe <;> rfl
@[simp] theorem setOVIf_bar (oe c : Bool) : (s.setOVIf oe c).bar = s.bar := by cases oe <;> rfl
@[simp] theorem setOVIf_reservation (oe c : Bool) : (s.setOVIf oe c).reservation = s.reservation := by cases oe <;> rfl
@[simp] theorem setOVIf_decPending (oe c : Bool) : (s.setOVIf oe c).decPending = s.decPending := by cases oe <;> rfl
@[simp] theorem setOVIf_irq (oe c : Bool) : (s.setOVIf oe c).irq = s.irq := by cases oe <;> rfl
@[simp] theorem setOVIf_nmiPending (oe c : Bool) : (s.setOVIf oe c).nmiPending = s.nmiPending := by cases oe <;> rfl
@[simp] theorem setOVIf_nmiAtReset (oe c : Bool) : (s.setOVIf oe c).nmiAtReset = s.nmiAtReset := by cases oe <;> rfl
@[simp] theorem setOVIf_mebPending (oe c : Bool) : (s.setOVIf oe c).mebPending = s.mebPending := by cases oe <;> rfl
@[simp] theorem setOVIf_resetAsserted (oe c : Bool) : (s.setOVIf oe c).resetAsserted = s.resetAsserted := by cases oe <;> rfl
@[simp] theorem setOVIf_checkstop (oe c : Bool) : (s.setOVIf oe c).checkstop = s.checkstop := by cases oe <;> rfl
@[simp] theorem setOVIf_debugEnabled (oe c : Bool) : (s.setOVIf oe c).debugEnabled = s.debugEnabled := by cases oe <;> rfl
@[simp] theorem setOVIf_inDebug (oe c : Bool) : (s.setOVIf oe c).inDebug = s.inDebug := by cases oe <;> rfl
@[simp] theorem setOVIf_freeze (oe c : Bool) : (s.setOVIf oe c).freeze = s.freeze := by cases oe <;> rfl
@[simp] theorem setOVIf_port (oe c : Bool) : (s.setOVIf oe c).port = s.port := by cases oe <;> rfl
@[simp] theorem setOVIf_icache (oe c : Bool) : (s.setOVIf oe c).icache = s.icache := by cases oe <;> rfl
@[simp] theorem setOVIf_stale (oe c : Bool) : (s.setOVIf oe c).stale = s.stale := by cases oe <;> rfl
@[simp] theorem setOVIf_mem (oe c : Bool) : (s.setOVIf oe c).mem = s.mem := by cases oe <;> rfl
@[simp] theorem setOVIf_platform (oe c : Bool) : (s.setOVIf oe c).platform = s.platform := by cases oe <;> rfl
@[simp] theorem setOVIf_events (oe c : Bool) : (s.setOVIf oe c).events = s.events := by cases oe <;> rfl
@[simp] theorem setOVIf_intrusions (oe c : Bool) : (s.setOVIf oe c).intrusions = s.intrusions := by cases oe <;> rfl
@[simp] theorem setOVIf_cutShort (oe c : Bool) : (s.setOVIf oe c).cutShort = s.cutShort := by cases oe <;> rfl
@[simp] theorem setOVIf_freeCount (oe c : Bool) : (s.setOVIf oe c).freeCount = s.freeCount := by cases oe <;> rfl
@[simp] theorem setOVIf_lbus (oe c : Bool) : (s.setOVIf oe c).lbus = s.lbus := by cases oe <;> rfl
@[simp] theorem setOVIf_excTaken (oe c : Bool) : (s.setOVIf oe c).excTaken = s.excTaken := by cases oe <;> rfl

/-! `recordIf` -/

@[simp] theorem recordIf_gpr (rc : Bool) (v : Word) : (s.recordIf rc v).gpr = s.gpr := by cases rc <;> rfl
@[simp] theorem recordIf_fpr (rc : Bool) (v : Word) : (s.recordIf rc v).fpr = s.fpr := by cases rc <;> rfl
@[simp] theorem recordIf_pc (rc : Bool) (v : Word) : (s.recordIf rc v).pc = s.pc := by cases rc <;> rfl
@[simp] theorem recordIf_xer (rc : Bool) (v : Word) : (s.recordIf rc v).xer = s.xer := by cases rc <;> rfl
@[simp] theorem recordIf_lr (rc : Bool) (v : Word) : (s.recordIf rc v).lr = s.lr := by cases rc <;> rfl
@[simp] theorem recordIf_ctr (rc : Bool) (v : Word) : (s.recordIf rc v).ctr = s.ctr := by cases rc <;> rfl
@[simp] theorem recordIf_fpscr (rc : Bool) (v : Word) : (s.recordIf rc v).fpscr = s.fpscr := by cases rc <;> rfl
@[simp] theorem recordIf_msr (rc : Bool) (v : Word) : (s.recordIf rc v).msr = s.msr := by cases rc <;> rfl
@[simp] theorem recordIf_tb (rc : Bool) (v : Word) : (s.recordIf rc v).tb = s.tb := by cases rc <;> rfl
@[simp] theorem recordIf_dec (rc : Bool) (v : Word) : (s.recordIf rc v).dec = s.dec := by cases rc <;> rfl
@[simp] theorem recordIf_dsisr (rc : Bool) (v : Word) : (s.recordIf rc v).dsisr = s.dsisr := by cases rc <;> rfl
@[simp] theorem recordIf_dar (rc : Bool) (v : Word) : (s.recordIf rc v).dar = s.dar := by cases rc <;> rfl
@[simp] theorem recordIf_srr0 (rc : Bool) (v : Word) : (s.recordIf rc v).srr0 = s.srr0 := by cases rc <;> rfl
@[simp] theorem recordIf_srr1 (rc : Bool) (v : Word) : (s.recordIf rc v).srr1 = s.srr1 := by cases rc <;> rfl
@[simp] theorem recordIf_sprg0 (rc : Bool) (v : Word) : (s.recordIf rc v).sprg0 = s.sprg0 := by cases rc <;> rfl
@[simp] theorem recordIf_sprg1 (rc : Bool) (v : Word) : (s.recordIf rc v).sprg1 = s.sprg1 := by cases rc <;> rfl
@[simp] theorem recordIf_sprg2 (rc : Bool) (v : Word) : (s.recordIf rc v).sprg2 = s.sprg2 := by cases rc <;> rfl
@[simp] theorem recordIf_sprg3 (rc : Bool) (v : Word) : (s.recordIf rc v).sprg3 = s.sprg3 := by cases rc <;> rfl
@[simp] theorem recordIf_fpecr (rc : Bool) (v : Word) : (s.recordIf rc v).fpecr = s.fpecr := by cases rc <;> rfl
@[simp] theorem recordIf_iccst (rc : Bool) (v : Word) : (s.recordIf rc v).iccst = s.iccst := by cases rc <;> rfl
@[simp] theorem recordIf_icadr (rc : Bool) (v : Word) : (s.recordIf rc v).icadr = s.icadr := by cases rc <;> rfl
@[simp] theorem recordIf_cmpA (rc : Bool) (v : Word) : (s.recordIf rc v).cmpA = s.cmpA := by cases rc <;> rfl
@[simp] theorem recordIf_cmpB (rc : Bool) (v : Word) : (s.recordIf rc v).cmpB = s.cmpB := by cases rc <;> rfl
@[simp] theorem recordIf_cmpC (rc : Bool) (v : Word) : (s.recordIf rc v).cmpC = s.cmpC := by cases rc <;> rfl
@[simp] theorem recordIf_cmpD (rc : Bool) (v : Word) : (s.recordIf rc v).cmpD = s.cmpD := by cases rc <;> rfl
@[simp] theorem recordIf_cmpE (rc : Bool) (v : Word) : (s.recordIf rc v).cmpE = s.cmpE := by cases rc <;> rfl
@[simp] theorem recordIf_cmpF (rc : Bool) (v : Word) : (s.recordIf rc v).cmpF = s.cmpF := by cases rc <;> rfl
@[simp] theorem recordIf_cmpG (rc : Bool) (v : Word) : (s.recordIf rc v).cmpG = s.cmpG := by cases rc <;> rfl
@[simp] theorem recordIf_cmpH (rc : Bool) (v : Word) : (s.recordIf rc v).cmpH = s.cmpH := by cases rc <;> rfl
@[simp] theorem recordIf_ecr (rc : Bool) (v : Word) : (s.recordIf rc v).ecr = s.ecr := by cases rc <;> rfl
@[simp] theorem recordIf_der (rc : Bool) (v : Word) : (s.recordIf rc v).der = s.der := by cases rc <;> rfl
@[simp] theorem recordIf_countA (rc : Bool) (v : Word) : (s.recordIf rc v).countA = s.countA := by cases rc <;> rfl
@[simp] theorem recordIf_countB (rc : Bool) (v : Word) : (s.recordIf rc v).countB = s.countB := by cases rc <;> rfl
@[simp] theorem recordIf_lctrl1 (rc : Bool) (v : Word) : (s.recordIf rc v).lctrl1 = s.lctrl1 := by cases rc <;> rfl
@[simp] theorem recordIf_lctrl2 (rc : Bool) (v : Word) : (s.recordIf rc v).lctrl2 = s.lctrl2 := by cases rc <;> rfl
@[simp] theorem recordIf_ictrl (rc : Bool) (v : Word) : (s.recordIf rc v).ictrl = s.ictrl := by cases rc <;> rfl
@[simp] theorem recordIf_bar (rc : Bool) (v : Word) : (s.recordIf rc v).bar = s.bar := by cases rc <;> rfl
@[simp] theorem recordIf_reservation (rc : Bool) (v : Word) : (s.recordIf rc v).reservation = s.reservation := by cases rc <;> rfl
@[simp] theorem recordIf_decPending (rc : Bool) (v : Word) : (s.recordIf rc v).decPending = s.decPending := by cases rc <;> rfl
@[simp] theorem recordIf_irq (rc : Bool) (v : Word) : (s.recordIf rc v).irq = s.irq := by cases rc <;> rfl
@[simp] theorem recordIf_nmiPending (rc : Bool) (v : Word) : (s.recordIf rc v).nmiPending = s.nmiPending := by cases rc <;> rfl
@[simp] theorem recordIf_nmiAtReset (rc : Bool) (v : Word) : (s.recordIf rc v).nmiAtReset = s.nmiAtReset := by cases rc <;> rfl
@[simp] theorem recordIf_mebPending (rc : Bool) (v : Word) : (s.recordIf rc v).mebPending = s.mebPending := by cases rc <;> rfl
@[simp] theorem recordIf_resetAsserted (rc : Bool) (v : Word) : (s.recordIf rc v).resetAsserted = s.resetAsserted := by cases rc <;> rfl
@[simp] theorem recordIf_checkstop (rc : Bool) (v : Word) : (s.recordIf rc v).checkstop = s.checkstop := by cases rc <;> rfl
@[simp] theorem recordIf_debugEnabled (rc : Bool) (v : Word) : (s.recordIf rc v).debugEnabled = s.debugEnabled := by cases rc <;> rfl
@[simp] theorem recordIf_inDebug (rc : Bool) (v : Word) : (s.recordIf rc v).inDebug = s.inDebug := by cases rc <;> rfl
@[simp] theorem recordIf_freeze (rc : Bool) (v : Word) : (s.recordIf rc v).freeze = s.freeze := by cases rc <;> rfl
@[simp] theorem recordIf_port (rc : Bool) (v : Word) : (s.recordIf rc v).port = s.port := by cases rc <;> rfl
@[simp] theorem recordIf_icache (rc : Bool) (v : Word) : (s.recordIf rc v).icache = s.icache := by cases rc <;> rfl
@[simp] theorem recordIf_stale (rc : Bool) (v : Word) : (s.recordIf rc v).stale = s.stale := by cases rc <;> rfl
@[simp] theorem recordIf_mem (rc : Bool) (v : Word) : (s.recordIf rc v).mem = s.mem := by cases rc <;> rfl
@[simp] theorem recordIf_platform (rc : Bool) (v : Word) : (s.recordIf rc v).platform = s.platform := by cases rc <;> rfl
@[simp] theorem recordIf_events (rc : Bool) (v : Word) : (s.recordIf rc v).events = s.events := by cases rc <;> rfl
@[simp] theorem recordIf_intrusions (rc : Bool) (v : Word) : (s.recordIf rc v).intrusions = s.intrusions := by cases rc <;> rfl
@[simp] theorem recordIf_cutShort (rc : Bool) (v : Word) : (s.recordIf rc v).cutShort = s.cutShort := by cases rc <;> rfl
@[simp] theorem recordIf_freeCount (rc : Bool) (v : Word) : (s.recordIf rc v).freeCount = s.freeCount := by cases rc <;> rfl
@[simp] theorem recordIf_lbus (rc : Bool) (v : Word) : (s.recordIf rc v).lbus = s.lbus := by cases rc <;> rfl
@[simp] theorem recordIf_excTaken (rc : Bool) (v : Word) : (s.recordIf rc v).excTaken = s.excTaken := by cases rc <;> rfl

/-! `recordFp` -/

@[simp] theorem recordFp_gpr (rc : Bool) : (s.recordFp rc).gpr = s.gpr := by cases rc <;> rfl
@[simp] theorem recordFp_fpr (rc : Bool) : (s.recordFp rc).fpr = s.fpr := by cases rc <;> rfl
@[simp] theorem recordFp_pc (rc : Bool) : (s.recordFp rc).pc = s.pc := by cases rc <;> rfl
@[simp] theorem recordFp_xer (rc : Bool) : (s.recordFp rc).xer = s.xer := by cases rc <;> rfl
@[simp] theorem recordFp_lr (rc : Bool) : (s.recordFp rc).lr = s.lr := by cases rc <;> rfl
@[simp] theorem recordFp_ctr (rc : Bool) : (s.recordFp rc).ctr = s.ctr := by cases rc <;> rfl
@[simp] theorem recordFp_fpscr (rc : Bool) : (s.recordFp rc).fpscr = s.fpscr := by cases rc <;> rfl
@[simp] theorem recordFp_msr (rc : Bool) : (s.recordFp rc).msr = s.msr := by cases rc <;> rfl
@[simp] theorem recordFp_tb (rc : Bool) : (s.recordFp rc).tb = s.tb := by cases rc <;> rfl
@[simp] theorem recordFp_dec (rc : Bool) : (s.recordFp rc).dec = s.dec := by cases rc <;> rfl
@[simp] theorem recordFp_dsisr (rc : Bool) : (s.recordFp rc).dsisr = s.dsisr := by cases rc <;> rfl
@[simp] theorem recordFp_dar (rc : Bool) : (s.recordFp rc).dar = s.dar := by cases rc <;> rfl
@[simp] theorem recordFp_srr0 (rc : Bool) : (s.recordFp rc).srr0 = s.srr0 := by cases rc <;> rfl
@[simp] theorem recordFp_srr1 (rc : Bool) : (s.recordFp rc).srr1 = s.srr1 := by cases rc <;> rfl
@[simp] theorem recordFp_sprg0 (rc : Bool) : (s.recordFp rc).sprg0 = s.sprg0 := by cases rc <;> rfl
@[simp] theorem recordFp_sprg1 (rc : Bool) : (s.recordFp rc).sprg1 = s.sprg1 := by cases rc <;> rfl
@[simp] theorem recordFp_sprg2 (rc : Bool) : (s.recordFp rc).sprg2 = s.sprg2 := by cases rc <;> rfl
@[simp] theorem recordFp_sprg3 (rc : Bool) : (s.recordFp rc).sprg3 = s.sprg3 := by cases rc <;> rfl
@[simp] theorem recordFp_fpecr (rc : Bool) : (s.recordFp rc).fpecr = s.fpecr := by cases rc <;> rfl
@[simp] theorem recordFp_iccst (rc : Bool) : (s.recordFp rc).iccst = s.iccst := by cases rc <;> rfl
@[simp] theorem recordFp_icadr (rc : Bool) : (s.recordFp rc).icadr = s.icadr := by cases rc <;> rfl
@[simp] theorem recordFp_cmpA (rc : Bool) : (s.recordFp rc).cmpA = s.cmpA := by cases rc <;> rfl
@[simp] theorem recordFp_cmpB (rc : Bool) : (s.recordFp rc).cmpB = s.cmpB := by cases rc <;> rfl
@[simp] theorem recordFp_cmpC (rc : Bool) : (s.recordFp rc).cmpC = s.cmpC := by cases rc <;> rfl
@[simp] theorem recordFp_cmpD (rc : Bool) : (s.recordFp rc).cmpD = s.cmpD := by cases rc <;> rfl
@[simp] theorem recordFp_cmpE (rc : Bool) : (s.recordFp rc).cmpE = s.cmpE := by cases rc <;> rfl
@[simp] theorem recordFp_cmpF (rc : Bool) : (s.recordFp rc).cmpF = s.cmpF := by cases rc <;> rfl
@[simp] theorem recordFp_cmpG (rc : Bool) : (s.recordFp rc).cmpG = s.cmpG := by cases rc <;> rfl
@[simp] theorem recordFp_cmpH (rc : Bool) : (s.recordFp rc).cmpH = s.cmpH := by cases rc <;> rfl
@[simp] theorem recordFp_ecr (rc : Bool) : (s.recordFp rc).ecr = s.ecr := by cases rc <;> rfl
@[simp] theorem recordFp_der (rc : Bool) : (s.recordFp rc).der = s.der := by cases rc <;> rfl
@[simp] theorem recordFp_countA (rc : Bool) : (s.recordFp rc).countA = s.countA := by cases rc <;> rfl
@[simp] theorem recordFp_countB (rc : Bool) : (s.recordFp rc).countB = s.countB := by cases rc <;> rfl
@[simp] theorem recordFp_lctrl1 (rc : Bool) : (s.recordFp rc).lctrl1 = s.lctrl1 := by cases rc <;> rfl
@[simp] theorem recordFp_lctrl2 (rc : Bool) : (s.recordFp rc).lctrl2 = s.lctrl2 := by cases rc <;> rfl
@[simp] theorem recordFp_ictrl (rc : Bool) : (s.recordFp rc).ictrl = s.ictrl := by cases rc <;> rfl
@[simp] theorem recordFp_bar (rc : Bool) : (s.recordFp rc).bar = s.bar := by cases rc <;> rfl
@[simp] theorem recordFp_reservation (rc : Bool) : (s.recordFp rc).reservation = s.reservation := by cases rc <;> rfl
@[simp] theorem recordFp_decPending (rc : Bool) : (s.recordFp rc).decPending = s.decPending := by cases rc <;> rfl
@[simp] theorem recordFp_irq (rc : Bool) : (s.recordFp rc).irq = s.irq := by cases rc <;> rfl
@[simp] theorem recordFp_nmiPending (rc : Bool) : (s.recordFp rc).nmiPending = s.nmiPending := by cases rc <;> rfl
@[simp] theorem recordFp_nmiAtReset (rc : Bool) : (s.recordFp rc).nmiAtReset = s.nmiAtReset := by cases rc <;> rfl
@[simp] theorem recordFp_mebPending (rc : Bool) : (s.recordFp rc).mebPending = s.mebPending := by cases rc <;> rfl
@[simp] theorem recordFp_resetAsserted (rc : Bool) : (s.recordFp rc).resetAsserted = s.resetAsserted := by cases rc <;> rfl
@[simp] theorem recordFp_checkstop (rc : Bool) : (s.recordFp rc).checkstop = s.checkstop := by cases rc <;> rfl
@[simp] theorem recordFp_debugEnabled (rc : Bool) : (s.recordFp rc).debugEnabled = s.debugEnabled := by cases rc <;> rfl
@[simp] theorem recordFp_inDebug (rc : Bool) : (s.recordFp rc).inDebug = s.inDebug := by cases rc <;> rfl
@[simp] theorem recordFp_freeze (rc : Bool) : (s.recordFp rc).freeze = s.freeze := by cases rc <;> rfl
@[simp] theorem recordFp_port (rc : Bool) : (s.recordFp rc).port = s.port := by cases rc <;> rfl
@[simp] theorem recordFp_icache (rc : Bool) : (s.recordFp rc).icache = s.icache := by cases rc <;> rfl
@[simp] theorem recordFp_stale (rc : Bool) : (s.recordFp rc).stale = s.stale := by cases rc <;> rfl
@[simp] theorem recordFp_mem (rc : Bool) : (s.recordFp rc).mem = s.mem := by cases rc <;> rfl
@[simp] theorem recordFp_platform (rc : Bool) : (s.recordFp rc).platform = s.platform := by cases rc <;> rfl
@[simp] theorem recordFp_events (rc : Bool) : (s.recordFp rc).events = s.events := by cases rc <;> rfl
@[simp] theorem recordFp_intrusions (rc : Bool) : (s.recordFp rc).intrusions = s.intrusions := by cases rc <;> rfl
@[simp] theorem recordFp_cutShort (rc : Bool) : (s.recordFp rc).cutShort = s.cutShort := by cases rc <;> rfl
@[simp] theorem recordFp_freeCount (rc : Bool) : (s.recordFp rc).freeCount = s.freeCount := by cases rc <;> rfl
@[simp] theorem recordFp_lbus (rc : Bool) : (s.recordFp rc).lbus = s.lbus := by cases rc <;> rfl
@[simp] theorem recordFp_excTaken (rc : Bool) : (s.recordFp rc).excTaken = s.excTaken := by cases rc <;> rfl

/-! `setCauses` -/

@[simp] theorem setCauses_gpr (a b c d : Bool) : (s.setCauses a b c d).gpr = s.gpr := by unfold State.setCauses; split <;> rfl
@[simp] theorem setCauses_fpr (a b c d : Bool) : (s.setCauses a b c d).fpr = s.fpr := by unfold State.setCauses; split <;> rfl
@[simp] theorem setCauses_pc (a b c d : Bool) : (s.setCauses a b c d).pc = s.pc := by unfold State.setCauses; split <;> rfl
@[simp] theorem setCauses_cr (a b c d : Bool) : (s.setCauses a b c d).cr = s.cr := by unfold State.setCauses; split <;> rfl
@[simp] theorem setCauses_xer (a b c d : Bool) : (s.setCauses a b c d).xer = s.xer := by unfold State.setCauses; split <;> rfl
@[simp] theorem setCauses_lr (a b c d : Bool) : (s.setCauses a b c d).lr = s.lr := by unfold State.setCauses; split <;> rfl
@[simp] theorem setCauses_ctr (a b c d : Bool) : (s.setCauses a b c d).ctr = s.ctr := by unfold State.setCauses; split <;> rfl
@[simp] theorem setCauses_fpscr (a b c d : Bool) : (s.setCauses a b c d).fpscr = s.fpscr := by unfold State.setCauses; split <;> rfl
@[simp] theorem setCauses_msr (a b c d : Bool) : (s.setCauses a b c d).msr = s.msr := by unfold State.setCauses; split <;> rfl
@[simp] theorem setCauses_tb (a b c d : Bool) : (s.setCauses a b c d).tb = s.tb := by unfold State.setCauses; split <;> rfl
@[simp] theorem setCauses_dec (a b c d : Bool) : (s.setCauses a b c d).dec = s.dec := by unfold State.setCauses; split <;> rfl
@[simp] theorem setCauses_dsisr (a b c d : Bool) : (s.setCauses a b c d).dsisr = s.dsisr := by unfold State.setCauses; split <;> rfl
@[simp] theorem setCauses_dar (a b c d : Bool) : (s.setCauses a b c d).dar = s.dar := by unfold State.setCauses; split <;> rfl
@[simp] theorem setCauses_srr0 (a b c d : Bool) : (s.setCauses a b c d).srr0 = s.srr0 := by unfold State.setCauses; split <;> rfl
@[simp] theorem setCauses_srr1 (a b c d : Bool) : (s.setCauses a b c d).srr1 = s.srr1 := by unfold State.setCauses; split <;> rfl
@[simp] theorem setCauses_sprg0 (a b c d : Bool) : (s.setCauses a b c d).sprg0 = s.sprg0 := by unfold State.setCauses; split <;> rfl
@[simp] theorem setCauses_sprg1 (a b c d : Bool) : (s.setCauses a b c d).sprg1 = s.sprg1 := by unfold State.setCauses; split <;> rfl
@[simp] theorem setCauses_sprg2 (a b c d : Bool) : (s.setCauses a b c d).sprg2 = s.sprg2 := by unfold State.setCauses; split <;> rfl
@[simp] theorem setCauses_sprg3 (a b c d : Bool) : (s.setCauses a b c d).sprg3 = s.sprg3 := by unfold State.setCauses; split <;> rfl
@[simp] theorem setCauses_iccst (a b c d : Bool) : (s.setCauses a b c d).iccst = s.iccst := by unfold State.setCauses; split <;> rfl
@[simp] theorem setCauses_icadr (a b c d : Bool) : (s.setCauses a b c d).icadr = s.icadr := by unfold State.setCauses; split <;> rfl
@[simp] theorem setCauses_cmpA (a b c d : Bool) : (s.setCauses a b c d).cmpA = s.cmpA := by unfold State.setCauses; split <;> rfl
@[simp] theorem setCauses_cmpB (a b c d : Bool) : (s.setCauses a b c d).cmpB = s.cmpB := by unfold State.setCauses; split <;> rfl
@[simp] theorem setCauses_cmpC (a b c d : Bool) : (s.setCauses a b c d).cmpC = s.cmpC := by unfold State.setCauses; split <;> rfl
@[simp] theorem setCauses_cmpD (a b c d : Bool) : (s.setCauses a b c d).cmpD = s.cmpD := by unfold State.setCauses; split <;> rfl
@[simp] theorem setCauses_cmpE (a b c d : Bool) : (s.setCauses a b c d).cmpE = s.cmpE := by unfold State.setCauses; split <;> rfl
@[simp] theorem setCauses_cmpF (a b c d : Bool) : (s.setCauses a b c d).cmpF = s.cmpF := by unfold State.setCauses; split <;> rfl
@[simp] theorem setCauses_cmpG (a b c d : Bool) : (s.setCauses a b c d).cmpG = s.cmpG := by unfold State.setCauses; split <;> rfl
@[simp] theorem setCauses_cmpH (a b c d : Bool) : (s.setCauses a b c d).cmpH = s.cmpH := by unfold State.setCauses; split <;> rfl
@[simp] theorem setCauses_ecr (a b c d : Bool) : (s.setCauses a b c d).ecr = s.ecr := by unfold State.setCauses; split <;> rfl
@[simp] theorem setCauses_der (a b c d : Bool) : (s.setCauses a b c d).der = s.der := by unfold State.setCauses; split <;> rfl
@[simp] theorem setCauses_countA (a b c d : Bool) : (s.setCauses a b c d).countA = s.countA := by unfold State.setCauses; split <;> rfl
@[simp] theorem setCauses_countB (a b c d : Bool) : (s.setCauses a b c d).countB = s.countB := by unfold State.setCauses; split <;> rfl
@[simp] theorem setCauses_lctrl1 (a b c d : Bool) : (s.setCauses a b c d).lctrl1 = s.lctrl1 := by unfold State.setCauses; split <;> rfl
@[simp] theorem setCauses_lctrl2 (a b c d : Bool) : (s.setCauses a b c d).lctrl2 = s.lctrl2 := by unfold State.setCauses; split <;> rfl
@[simp] theorem setCauses_ictrl (a b c d : Bool) : (s.setCauses a b c d).ictrl = s.ictrl := by unfold State.setCauses; split <;> rfl
@[simp] theorem setCauses_bar (a b c d : Bool) : (s.setCauses a b c d).bar = s.bar := by unfold State.setCauses; split <;> rfl
@[simp] theorem setCauses_reservation (a b c d : Bool) : (s.setCauses a b c d).reservation = s.reservation := by unfold State.setCauses; split <;> rfl
@[simp] theorem setCauses_decPending (a b c d : Bool) : (s.setCauses a b c d).decPending = s.decPending := by unfold State.setCauses; split <;> rfl
@[simp] theorem setCauses_irq (a b c d : Bool) : (s.setCauses a b c d).irq = s.irq := by unfold State.setCauses; split <;> rfl
@[simp] theorem setCauses_nmiPending (a b c d : Bool) : (s.setCauses a b c d).nmiPending = s.nmiPending := by unfold State.setCauses; split <;> rfl
@[simp] theorem setCauses_nmiAtReset (a b c d : Bool) : (s.setCauses a b c d).nmiAtReset = s.nmiAtReset := by unfold State.setCauses; split <;> rfl
@[simp] theorem setCauses_mebPending (a b c d : Bool) : (s.setCauses a b c d).mebPending = s.mebPending := by unfold State.setCauses; split <;> rfl
@[simp] theorem setCauses_resetAsserted (a b c d : Bool) : (s.setCauses a b c d).resetAsserted = s.resetAsserted := by unfold State.setCauses; split <;> rfl
@[simp] theorem setCauses_checkstop (a b c d : Bool) : (s.setCauses a b c d).checkstop = s.checkstop := by unfold State.setCauses; split <;> rfl
@[simp] theorem setCauses_debugEnabled (a b c d : Bool) : (s.setCauses a b c d).debugEnabled = s.debugEnabled := by unfold State.setCauses; split <;> rfl
@[simp] theorem setCauses_inDebug (a b c d : Bool) : (s.setCauses a b c d).inDebug = s.inDebug := by unfold State.setCauses; split <;> rfl
@[simp] theorem setCauses_freeze (a b c d : Bool) : (s.setCauses a b c d).freeze = s.freeze := by unfold State.setCauses; split <;> rfl
@[simp] theorem setCauses_port (a b c d : Bool) : (s.setCauses a b c d).port = s.port := by unfold State.setCauses; split <;> rfl
@[simp] theorem setCauses_icache (a b c d : Bool) : (s.setCauses a b c d).icache = s.icache := by unfold State.setCauses; split <;> rfl
@[simp] theorem setCauses_stale (a b c d : Bool) : (s.setCauses a b c d).stale = s.stale := by unfold State.setCauses; split <;> rfl
@[simp] theorem setCauses_mem (a b c d : Bool) : (s.setCauses a b c d).mem = s.mem := by unfold State.setCauses; split <;> rfl
@[simp] theorem setCauses_platform (a b c d : Bool) : (s.setCauses a b c d).platform = s.platform := by unfold State.setCauses; split <;> rfl
@[simp] theorem setCauses_events (a b c d : Bool) : (s.setCauses a b c d).events = s.events := by unfold State.setCauses; split <;> rfl
@[simp] theorem setCauses_intrusions (a b c d : Bool) : (s.setCauses a b c d).intrusions = s.intrusions := by unfold State.setCauses; split <;> rfl
@[simp] theorem setCauses_cutShort (a b c d : Bool) : (s.setCauses a b c d).cutShort = s.cutShort := by unfold State.setCauses; split <;> rfl
@[simp] theorem setCauses_freeCount (a b c d : Bool) : (s.setCauses a b c d).freeCount = s.freeCount := by unfold State.setCauses; split <;> rfl
@[simp] theorem setCauses_lbus (a b c d : Bool) : (s.setCauses a b c d).lbus = s.lbus := by unfold State.setCauses; split <;> rfl
@[simp] theorem setCauses_excTaken (a b c d : Bool) : (s.setCauses a b c d).excTaken = s.excTaken := by unfold State.setCauses; split <;> rfl

/-! `draw` -/

@[simp] theorem draw_gpr : s.draw.2.gpr = s.gpr := rfl
@[simp] theorem draw_fpr : s.draw.2.fpr = s.fpr := rfl
@[simp] theorem draw_pc : s.draw.2.pc = s.pc := rfl
@[simp] theorem draw_cr : s.draw.2.cr = s.cr := rfl
@[simp] theorem draw_xer : s.draw.2.xer = s.xer := rfl
@[simp] theorem draw_lr : s.draw.2.lr = s.lr := rfl
@[simp] theorem draw_ctr : s.draw.2.ctr = s.ctr := rfl
@[simp] theorem draw_fpscr : s.draw.2.fpscr = s.fpscr := rfl
@[simp] theorem draw_msr : s.draw.2.msr = s.msr := rfl
@[simp] theorem draw_tb : s.draw.2.tb = s.tb := rfl
@[simp] theorem draw_dec : s.draw.2.dec = s.dec := rfl
@[simp] theorem draw_dsisr : s.draw.2.dsisr = s.dsisr := rfl
@[simp] theorem draw_dar : s.draw.2.dar = s.dar := rfl
@[simp] theorem draw_srr0 : s.draw.2.srr0 = s.srr0 := rfl
@[simp] theorem draw_srr1 : s.draw.2.srr1 = s.srr1 := rfl
@[simp] theorem draw_sprg0 : s.draw.2.sprg0 = s.sprg0 := rfl
@[simp] theorem draw_sprg1 : s.draw.2.sprg1 = s.sprg1 := rfl
@[simp] theorem draw_sprg2 : s.draw.2.sprg2 = s.sprg2 := rfl
@[simp] theorem draw_sprg3 : s.draw.2.sprg3 = s.sprg3 := rfl
@[simp] theorem draw_fpecr : s.draw.2.fpecr = s.fpecr := rfl
@[simp] theorem draw_iccst : s.draw.2.iccst = s.iccst := rfl
@[simp] theorem draw_icadr : s.draw.2.icadr = s.icadr := rfl
@[simp] theorem draw_cmpA : s.draw.2.cmpA = s.cmpA := rfl
@[simp] theorem draw_cmpB : s.draw.2.cmpB = s.cmpB := rfl
@[simp] theorem draw_cmpC : s.draw.2.cmpC = s.cmpC := rfl
@[simp] theorem draw_cmpD : s.draw.2.cmpD = s.cmpD := rfl
@[simp] theorem draw_cmpE : s.draw.2.cmpE = s.cmpE := rfl
@[simp] theorem draw_cmpF : s.draw.2.cmpF = s.cmpF := rfl
@[simp] theorem draw_cmpG : s.draw.2.cmpG = s.cmpG := rfl
@[simp] theorem draw_cmpH : s.draw.2.cmpH = s.cmpH := rfl
@[simp] theorem draw_ecr : s.draw.2.ecr = s.ecr := rfl
@[simp] theorem draw_der : s.draw.2.der = s.der := rfl
@[simp] theorem draw_countA : s.draw.2.countA = s.countA := rfl
@[simp] theorem draw_countB : s.draw.2.countB = s.countB := rfl
@[simp] theorem draw_lctrl1 : s.draw.2.lctrl1 = s.lctrl1 := rfl
@[simp] theorem draw_lctrl2 : s.draw.2.lctrl2 = s.lctrl2 := rfl
@[simp] theorem draw_ictrl : s.draw.2.ictrl = s.ictrl := rfl
@[simp] theorem draw_bar : s.draw.2.bar = s.bar := rfl
@[simp] theorem draw_reservation : s.draw.2.reservation = s.reservation := rfl
@[simp] theorem draw_decPending : s.draw.2.decPending = s.decPending := rfl
@[simp] theorem draw_irq : s.draw.2.irq = s.irq := rfl
@[simp] theorem draw_nmiPending : s.draw.2.nmiPending = s.nmiPending := rfl
@[simp] theorem draw_nmiAtReset : s.draw.2.nmiAtReset = s.nmiAtReset := rfl
@[simp] theorem draw_mebPending : s.draw.2.mebPending = s.mebPending := rfl
@[simp] theorem draw_resetAsserted : s.draw.2.resetAsserted = s.resetAsserted := rfl
@[simp] theorem draw_checkstop : s.draw.2.checkstop = s.checkstop := rfl
@[simp] theorem draw_debugEnabled : s.draw.2.debugEnabled = s.debugEnabled := rfl
@[simp] theorem draw_inDebug : s.draw.2.inDebug = s.inDebug := rfl
@[simp] theorem draw_freeze : s.draw.2.freeze = s.freeze := rfl
@[simp] theorem draw_port : s.draw.2.port = s.port := rfl
@[simp] theorem draw_icache : s.draw.2.icache = s.icache := rfl
@[simp] theorem draw_stale : s.draw.2.stale = s.stale := rfl
@[simp] theorem draw_mem : s.draw.2.mem = s.mem := rfl
@[simp] theorem draw_platform : s.draw.2.platform = s.platform := rfl
@[simp] theorem draw_events : s.draw.2.events = s.events := rfl
@[simp] theorem draw_intrusions : s.draw.2.intrusions = s.intrusions := rfl
@[simp] theorem draw_cutShort : s.draw.2.cutShort = s.cutShort := rfl
@[simp] theorem draw_lbus : s.draw.2.lbus = s.lbus := rfl
@[simp] theorem draw_excTaken : s.draw.2.excTaken = s.excTaken := rfl

/-! `record` -/

@[simp] theorem record_gpr (c : Cycle) (w x : Bool) (bs : List Byte) : (s.record c w x bs).gpr = s.gpr := rfl
@[simp] theorem record_fpr (c : Cycle) (w x : Bool) (bs : List Byte) : (s.record c w x bs).fpr = s.fpr := rfl
@[simp] theorem record_pc (c : Cycle) (w x : Bool) (bs : List Byte) : (s.record c w x bs).pc = s.pc := rfl
@[simp] theorem record_cr (c : Cycle) (w x : Bool) (bs : List Byte) : (s.record c w x bs).cr = s.cr := rfl
@[simp] theorem record_xer (c : Cycle) (w x : Bool) (bs : List Byte) : (s.record c w x bs).xer = s.xer := rfl
@[simp] theorem record_lr (c : Cycle) (w x : Bool) (bs : List Byte) : (s.record c w x bs).lr = s.lr := rfl
@[simp] theorem record_ctr (c : Cycle) (w x : Bool) (bs : List Byte) : (s.record c w x bs).ctr = s.ctr := rfl
@[simp] theorem record_fpscr (c : Cycle) (w x : Bool) (bs : List Byte) : (s.record c w x bs).fpscr = s.fpscr := rfl
@[simp] theorem record_msr (c : Cycle) (w x : Bool) (bs : List Byte) : (s.record c w x bs).msr = s.msr := rfl
@[simp] theorem record_tb (c : Cycle) (w x : Bool) (bs : List Byte) : (s.record c w x bs).tb = s.tb := rfl
@[simp] theorem record_dec (c : Cycle) (w x : Bool) (bs : List Byte) : (s.record c w x bs).dec = s.dec := rfl
@[simp] theorem record_dsisr (c : Cycle) (w x : Bool) (bs : List Byte) : (s.record c w x bs).dsisr = s.dsisr := rfl
@[simp] theorem record_dar (c : Cycle) (w x : Bool) (bs : List Byte) : (s.record c w x bs).dar = s.dar := rfl
@[simp] theorem record_srr0 (c : Cycle) (w x : Bool) (bs : List Byte) : (s.record c w x bs).srr0 = s.srr0 := rfl
@[simp] theorem record_srr1 (c : Cycle) (w x : Bool) (bs : List Byte) : (s.record c w x bs).srr1 = s.srr1 := rfl
@[simp] theorem record_sprg0 (c : Cycle) (w x : Bool) (bs : List Byte) : (s.record c w x bs).sprg0 = s.sprg0 := rfl
@[simp] theorem record_sprg1 (c : Cycle) (w x : Bool) (bs : List Byte) : (s.record c w x bs).sprg1 = s.sprg1 := rfl
@[simp] theorem record_sprg2 (c : Cycle) (w x : Bool) (bs : List Byte) : (s.record c w x bs).sprg2 = s.sprg2 := rfl
@[simp] theorem record_sprg3 (c : Cycle) (w x : Bool) (bs : List Byte) : (s.record c w x bs).sprg3 = s.sprg3 := rfl
@[simp] theorem record_fpecr (c : Cycle) (w x : Bool) (bs : List Byte) : (s.record c w x bs).fpecr = s.fpecr := rfl
@[simp] theorem record_iccst (c : Cycle) (w x : Bool) (bs : List Byte) : (s.record c w x bs).iccst = s.iccst := rfl
@[simp] theorem record_icadr (c : Cycle) (w x : Bool) (bs : List Byte) : (s.record c w x bs).icadr = s.icadr := rfl
@[simp] theorem record_cmpA (c : Cycle) (w x : Bool) (bs : List Byte) : (s.record c w x bs).cmpA = s.cmpA := rfl
@[simp] theorem record_cmpB (c : Cycle) (w x : Bool) (bs : List Byte) : (s.record c w x bs).cmpB = s.cmpB := rfl
@[simp] theorem record_cmpC (c : Cycle) (w x : Bool) (bs : List Byte) : (s.record c w x bs).cmpC = s.cmpC := rfl
@[simp] theorem record_cmpD (c : Cycle) (w x : Bool) (bs : List Byte) : (s.record c w x bs).cmpD = s.cmpD := rfl
@[simp] theorem record_cmpE (c : Cycle) (w x : Bool) (bs : List Byte) : (s.record c w x bs).cmpE = s.cmpE := rfl
@[simp] theorem record_cmpF (c : Cycle) (w x : Bool) (bs : List Byte) : (s.record c w x bs).cmpF = s.cmpF := rfl
@[simp] theorem record_cmpG (c : Cycle) (w x : Bool) (bs : List Byte) : (s.record c w x bs).cmpG = s.cmpG := rfl
@[simp] theorem record_cmpH (c : Cycle) (w x : Bool) (bs : List Byte) : (s.record c w x bs).cmpH = s.cmpH := rfl
@[simp] theorem record_ecr (c : Cycle) (w x : Bool) (bs : List Byte) : (s.record c w x bs).ecr = s.ecr := rfl
@[simp] theorem record_der (c : Cycle) (w x : Bool) (bs : List Byte) : (s.record c w x bs).der = s.der := rfl
@[simp] theorem record_countA (c : Cycle) (w x : Bool) (bs : List Byte) : (s.record c w x bs).countA = s.countA := rfl
@[simp] theorem record_countB (c : Cycle) (w x : Bool) (bs : List Byte) : (s.record c w x bs).countB = s.countB := rfl
@[simp] theorem record_lctrl1 (c : Cycle) (w x : Bool) (bs : List Byte) : (s.record c w x bs).lctrl1 = s.lctrl1 := rfl
@[simp] theorem record_lctrl2 (c : Cycle) (w x : Bool) (bs : List Byte) : (s.record c w x bs).lctrl2 = s.lctrl2 := rfl
@[simp] theorem record_ictrl (c : Cycle) (w x : Bool) (bs : List Byte) : (s.record c w x bs).ictrl = s.ictrl := rfl
@[simp] theorem record_bar (c : Cycle) (w x : Bool) (bs : List Byte) : (s.record c w x bs).bar = s.bar := rfl
@[simp] theorem record_reservation (c : Cycle) (w x : Bool) (bs : List Byte) : (s.record c w x bs).reservation = s.reservation := rfl
@[simp] theorem record_decPending (c : Cycle) (w x : Bool) (bs : List Byte) : (s.record c w x bs).decPending = s.decPending := rfl
@[simp] theorem record_irq (c : Cycle) (w x : Bool) (bs : List Byte) : (s.record c w x bs).irq = s.irq := rfl
@[simp] theorem record_nmiPending (c : Cycle) (w x : Bool) (bs : List Byte) : (s.record c w x bs).nmiPending = s.nmiPending := rfl
@[simp] theorem record_nmiAtReset (c : Cycle) (w x : Bool) (bs : List Byte) : (s.record c w x bs).nmiAtReset = s.nmiAtReset := rfl
@[simp] theorem record_mebPending (c : Cycle) (w x : Bool) (bs : List Byte) : (s.record c w x bs).mebPending = s.mebPending := rfl
@[simp] theorem record_resetAsserted (c : Cycle) (w x : Bool) (bs : List Byte) : (s.record c w x bs).resetAsserted = s.resetAsserted := rfl
@[simp] theorem record_checkstop (c : Cycle) (w x : Bool) (bs : List Byte) : (s.record c w x bs).checkstop = s.checkstop := rfl
@[simp] theorem record_debugEnabled (c : Cycle) (w x : Bool) (bs : List Byte) : (s.record c w x bs).debugEnabled = s.debugEnabled := rfl
@[simp] theorem record_inDebug (c : Cycle) (w x : Bool) (bs : List Byte) : (s.record c w x bs).inDebug = s.inDebug := rfl
@[simp] theorem record_freeze (c : Cycle) (w x : Bool) (bs : List Byte) : (s.record c w x bs).freeze = s.freeze := rfl
@[simp] theorem record_port (c : Cycle) (w x : Bool) (bs : List Byte) : (s.record c w x bs).port = s.port := rfl
@[simp] theorem record_icache (c : Cycle) (w x : Bool) (bs : List Byte) : (s.record c w x bs).icache = s.icache := rfl
@[simp] theorem record_stale (c : Cycle) (w x : Bool) (bs : List Byte) : (s.record c w x bs).stale = s.stale := rfl
@[simp] theorem record_mem (c : Cycle) (w x : Bool) (bs : List Byte) : (s.record c w x bs).mem = s.mem := rfl
@[simp] theorem record_platform (c : Cycle) (w x : Bool) (bs : List Byte) : (s.record c w x bs).platform = s.platform := rfl
@[simp] theorem record_events (c : Cycle) (w x : Bool) (bs : List Byte) : (s.record c w x bs).events = s.events := rfl
@[simp] theorem record_intrusions (c : Cycle) (w x : Bool) (bs : List Byte) : (s.record c w x bs).intrusions = s.intrusions := rfl
@[simp] theorem record_cutShort (c : Cycle) (w x : Bool) (bs : List Byte) : (s.record c w x bs).cutShort = s.cutShort := rfl
@[simp] theorem record_freeCount (c : Cycle) (w x : Bool) (bs : List Byte) : (s.record c w x bs).freeCount = s.freeCount := rfl
@[simp] theorem record_excTaken (c : Cycle) (w x : Bool) (bs : List Byte) : (s.record c w x bs).excTaken = s.excTaken := rfl

/-! `noteStale` -/

@[simp] theorem noteStale_gpr (a o n : Word) : (s.noteStale a o n).gpr = s.gpr := by unfold State.noteStale; split <;> rfl
@[simp] theorem noteStale_fpr (a o n : Word) : (s.noteStale a o n).fpr = s.fpr := by unfold State.noteStale; split <;> rfl
@[simp] theorem noteStale_pc (a o n : Word) : (s.noteStale a o n).pc = s.pc := by unfold State.noteStale; split <;> rfl
@[simp] theorem noteStale_cr (a o n : Word) : (s.noteStale a o n).cr = s.cr := by unfold State.noteStale; split <;> rfl
@[simp] theorem noteStale_xer (a o n : Word) : (s.noteStale a o n).xer = s.xer := by unfold State.noteStale; split <;> rfl
@[simp] theorem noteStale_lr (a o n : Word) : (s.noteStale a o n).lr = s.lr := by unfold State.noteStale; split <;> rfl
@[simp] theorem noteStale_ctr (a o n : Word) : (s.noteStale a o n).ctr = s.ctr := by unfold State.noteStale; split <;> rfl
@[simp] theorem noteStale_fpscr (a o n : Word) : (s.noteStale a o n).fpscr = s.fpscr := by unfold State.noteStale; split <;> rfl
@[simp] theorem noteStale_msr (a o n : Word) : (s.noteStale a o n).msr = s.msr := by unfold State.noteStale; split <;> rfl
@[simp] theorem noteStale_tb (a o n : Word) : (s.noteStale a o n).tb = s.tb := by unfold State.noteStale; split <;> rfl
@[simp] theorem noteStale_dec (a o n : Word) : (s.noteStale a o n).dec = s.dec := by unfold State.noteStale; split <;> rfl
@[simp] theorem noteStale_dsisr (a o n : Word) : (s.noteStale a o n).dsisr = s.dsisr := by unfold State.noteStale; split <;> rfl
@[simp] theorem noteStale_dar (a o n : Word) : (s.noteStale a o n).dar = s.dar := by unfold State.noteStale; split <;> rfl
@[simp] theorem noteStale_srr0 (a o n : Word) : (s.noteStale a o n).srr0 = s.srr0 := by unfold State.noteStale; split <;> rfl
@[simp] theorem noteStale_srr1 (a o n : Word) : (s.noteStale a o n).srr1 = s.srr1 := by unfold State.noteStale; split <;> rfl
@[simp] theorem noteStale_sprg0 (a o n : Word) : (s.noteStale a o n).sprg0 = s.sprg0 := by unfold State.noteStale; split <;> rfl
@[simp] theorem noteStale_sprg1 (a o n : Word) : (s.noteStale a o n).sprg1 = s.sprg1 := by unfold State.noteStale; split <;> rfl
@[simp] theorem noteStale_sprg2 (a o n : Word) : (s.noteStale a o n).sprg2 = s.sprg2 := by unfold State.noteStale; split <;> rfl
@[simp] theorem noteStale_sprg3 (a o n : Word) : (s.noteStale a o n).sprg3 = s.sprg3 := by unfold State.noteStale; split <;> rfl
@[simp] theorem noteStale_fpecr (a o n : Word) : (s.noteStale a o n).fpecr = s.fpecr := by unfold State.noteStale; split <;> rfl
@[simp] theorem noteStale_iccst (a o n : Word) : (s.noteStale a o n).iccst = s.iccst := by unfold State.noteStale; split <;> rfl
@[simp] theorem noteStale_icadr (a o n : Word) : (s.noteStale a o n).icadr = s.icadr := by unfold State.noteStale; split <;> rfl
@[simp] theorem noteStale_cmpA (a o n : Word) : (s.noteStale a o n).cmpA = s.cmpA := by unfold State.noteStale; split <;> rfl
@[simp] theorem noteStale_cmpB (a o n : Word) : (s.noteStale a o n).cmpB = s.cmpB := by unfold State.noteStale; split <;> rfl
@[simp] theorem noteStale_cmpC (a o n : Word) : (s.noteStale a o n).cmpC = s.cmpC := by unfold State.noteStale; split <;> rfl
@[simp] theorem noteStale_cmpD (a o n : Word) : (s.noteStale a o n).cmpD = s.cmpD := by unfold State.noteStale; split <;> rfl
@[simp] theorem noteStale_cmpE (a o n : Word) : (s.noteStale a o n).cmpE = s.cmpE := by unfold State.noteStale; split <;> rfl
@[simp] theorem noteStale_cmpF (a o n : Word) : (s.noteStale a o n).cmpF = s.cmpF := by unfold State.noteStale; split <;> rfl
@[simp] theorem noteStale_cmpG (a o n : Word) : (s.noteStale a o n).cmpG = s.cmpG := by unfold State.noteStale; split <;> rfl
@[simp] theorem noteStale_cmpH (a o n : Word) : (s.noteStale a o n).cmpH = s.cmpH := by unfold State.noteStale; split <;> rfl
@[simp] theorem noteStale_ecr (a o n : Word) : (s.noteStale a o n).ecr = s.ecr := by unfold State.noteStale; split <;> rfl
@[simp] theorem noteStale_der (a o n : Word) : (s.noteStale a o n).der = s.der := by unfold State.noteStale; split <;> rfl
@[simp] theorem noteStale_countA (a o n : Word) : (s.noteStale a o n).countA = s.countA := by unfold State.noteStale; split <;> rfl
@[simp] theorem noteStale_countB (a o n : Word) : (s.noteStale a o n).countB = s.countB := by unfold State.noteStale; split <;> rfl
@[simp] theorem noteStale_lctrl1 (a o n : Word) : (s.noteStale a o n).lctrl1 = s.lctrl1 := by unfold State.noteStale; split <;> rfl
@[simp] theorem noteStale_lctrl2 (a o n : Word) : (s.noteStale a o n).lctrl2 = s.lctrl2 := by unfold State.noteStale; split <;> rfl
@[simp] theorem noteStale_ictrl (a o n : Word) : (s.noteStale a o n).ictrl = s.ictrl := by unfold State.noteStale; split <;> rfl
@[simp] theorem noteStale_bar (a o n : Word) : (s.noteStale a o n).bar = s.bar := by unfold State.noteStale; split <;> rfl
@[simp] theorem noteStale_reservation (a o n : Word) : (s.noteStale a o n).reservation = s.reservation := by unfold State.noteStale; split <;> rfl
@[simp] theorem noteStale_decPending (a o n : Word) : (s.noteStale a o n).decPending = s.decPending := by unfold State.noteStale; split <;> rfl
@[simp] theorem noteStale_irq (a o n : Word) : (s.noteStale a o n).irq = s.irq := by unfold State.noteStale; split <;> rfl
@[simp] theorem noteStale_nmiPending (a o n : Word) : (s.noteStale a o n).nmiPending = s.nmiPending := by unfold State.noteStale; split <;> rfl
@[simp] theorem noteStale_nmiAtReset (a o n : Word) : (s.noteStale a o n).nmiAtReset = s.nmiAtReset := by unfold State.noteStale; split <;> rfl
@[simp] theorem noteStale_mebPending (a o n : Word) : (s.noteStale a o n).mebPending = s.mebPending := by unfold State.noteStale; split <;> rfl
@[simp] theorem noteStale_resetAsserted (a o n : Word) : (s.noteStale a o n).resetAsserted = s.resetAsserted := by unfold State.noteStale; split <;> rfl
@[simp] theorem noteStale_checkstop (a o n : Word) : (s.noteStale a o n).checkstop = s.checkstop := by unfold State.noteStale; split <;> rfl
@[simp] theorem noteStale_debugEnabled (a o n : Word) : (s.noteStale a o n).debugEnabled = s.debugEnabled := by unfold State.noteStale; split <;> rfl
@[simp] theorem noteStale_inDebug (a o n : Word) : (s.noteStale a o n).inDebug = s.inDebug := by unfold State.noteStale; split <;> rfl
@[simp] theorem noteStale_freeze (a o n : Word) : (s.noteStale a o n).freeze = s.freeze := by unfold State.noteStale; split <;> rfl
@[simp] theorem noteStale_port (a o n : Word) : (s.noteStale a o n).port = s.port := by unfold State.noteStale; split <;> rfl
@[simp] theorem noteStale_icache (a o n : Word) : (s.noteStale a o n).icache = s.icache := by unfold State.noteStale; split <;> rfl
@[simp] theorem noteStale_mem (a o n : Word) : (s.noteStale a o n).mem = s.mem := by unfold State.noteStale; split <;> rfl
@[simp] theorem noteStale_platform (a o n : Word) : (s.noteStale a o n).platform = s.platform := by unfold State.noteStale; split <;> rfl
@[simp] theorem noteStale_events (a o n : Word) : (s.noteStale a o n).events = s.events := by unfold State.noteStale; split <;> rfl
@[simp] theorem noteStale_intrusions (a o n : Word) : (s.noteStale a o n).intrusions = s.intrusions := by unfold State.noteStale; split <;> rfl
@[simp] theorem noteStale_cutShort (a o n : Word) : (s.noteStale a o n).cutShort = s.cutShort := by unfold State.noteStale; split <;> rfl
@[simp] theorem noteStale_freeCount (a o n : Word) : (s.noteStale a o n).freeCount = s.freeCount := by unfold State.noteStale; split <;> rfl
@[simp] theorem noteStale_lbus (a o n : Word) : (s.noteStale a o n).lbus = s.lbus := by unfold State.noteStale; split <;> rfl
@[simp] theorem noteStale_excTaken (a o n : Word) : (s.noteStale a o n).excTaken = s.excTaken := by unfold State.noteStale; split <;> rfl

/-! `flushQueue` -/

@[simp] theorem flushQueue_gpr : s.flushQueue.gpr = s.gpr := rfl
@[simp] theorem flushQueue_fpr : s.flushQueue.fpr = s.fpr := rfl
@[simp] theorem flushQueue_pc : s.flushQueue.pc = s.pc := rfl
@[simp] theorem flushQueue_cr : s.flushQueue.cr = s.cr := rfl
@[simp] theorem flushQueue_xer : s.flushQueue.xer = s.xer := rfl
@[simp] theorem flushQueue_lr : s.flushQueue.lr = s.lr := rfl
@[simp] theorem flushQueue_ctr : s.flushQueue.ctr = s.ctr := rfl
@[simp] theorem flushQueue_fpscr : s.flushQueue.fpscr = s.fpscr := rfl
@[simp] theorem flushQueue_msr : s.flushQueue.msr = s.msr := rfl
@[simp] theorem flushQueue_tb : s.flushQueue.tb = s.tb := rfl
@[simp] theorem flushQueue_dec : s.flushQueue.dec = s.dec := rfl
@[simp] theorem flushQueue_dsisr : s.flushQueue.dsisr = s.dsisr := rfl
@[simp] theorem flushQueue_dar : s.flushQueue.dar = s.dar := rfl
@[simp] theorem flushQueue_srr0 : s.flushQueue.srr0 = s.srr0 := rfl
@[simp] theorem flushQueue_srr1 : s.flushQueue.srr1 = s.srr1 := rfl
@[simp] theorem flushQueue_sprg0 : s.flushQueue.sprg0 = s.sprg0 := rfl
@[simp] theorem flushQueue_sprg1 : s.flushQueue.sprg1 = s.sprg1 := rfl
@[simp] theorem flushQueue_sprg2 : s.flushQueue.sprg2 = s.sprg2 := rfl
@[simp] theorem flushQueue_sprg3 : s.flushQueue.sprg3 = s.sprg3 := rfl
@[simp] theorem flushQueue_fpecr : s.flushQueue.fpecr = s.fpecr := rfl
@[simp] theorem flushQueue_iccst : s.flushQueue.iccst = s.iccst := rfl
@[simp] theorem flushQueue_icadr : s.flushQueue.icadr = s.icadr := rfl
@[simp] theorem flushQueue_cmpA : s.flushQueue.cmpA = s.cmpA := rfl
@[simp] theorem flushQueue_cmpB : s.flushQueue.cmpB = s.cmpB := rfl
@[simp] theorem flushQueue_cmpC : s.flushQueue.cmpC = s.cmpC := rfl
@[simp] theorem flushQueue_cmpD : s.flushQueue.cmpD = s.cmpD := rfl
@[simp] theorem flushQueue_cmpE : s.flushQueue.cmpE = s.cmpE := rfl
@[simp] theorem flushQueue_cmpF : s.flushQueue.cmpF = s.cmpF := rfl
@[simp] theorem flushQueue_cmpG : s.flushQueue.cmpG = s.cmpG := rfl
@[simp] theorem flushQueue_cmpH : s.flushQueue.cmpH = s.cmpH := rfl
@[simp] theorem flushQueue_ecr : s.flushQueue.ecr = s.ecr := rfl
@[simp] theorem flushQueue_der : s.flushQueue.der = s.der := rfl
@[simp] theorem flushQueue_countA : s.flushQueue.countA = s.countA := rfl
@[simp] theorem flushQueue_countB : s.flushQueue.countB = s.countB := rfl
@[simp] theorem flushQueue_lctrl1 : s.flushQueue.lctrl1 = s.lctrl1 := rfl
@[simp] theorem flushQueue_lctrl2 : s.flushQueue.lctrl2 = s.lctrl2 := rfl
@[simp] theorem flushQueue_ictrl : s.flushQueue.ictrl = s.ictrl := rfl
@[simp] theorem flushQueue_bar : s.flushQueue.bar = s.bar := rfl
@[simp] theorem flushQueue_reservation : s.flushQueue.reservation = s.reservation := rfl
@[simp] theorem flushQueue_decPending : s.flushQueue.decPending = s.decPending := rfl
@[simp] theorem flushQueue_irq : s.flushQueue.irq = s.irq := rfl
@[simp] theorem flushQueue_nmiPending : s.flushQueue.nmiPending = s.nmiPending := rfl
@[simp] theorem flushQueue_nmiAtReset : s.flushQueue.nmiAtReset = s.nmiAtReset := rfl
@[simp] theorem flushQueue_mebPending : s.flushQueue.mebPending = s.mebPending := rfl
@[simp] theorem flushQueue_resetAsserted : s.flushQueue.resetAsserted = s.resetAsserted := rfl
@[simp] theorem flushQueue_checkstop : s.flushQueue.checkstop = s.checkstop := rfl
@[simp] theorem flushQueue_debugEnabled : s.flushQueue.debugEnabled = s.debugEnabled := rfl
@[simp] theorem flushQueue_inDebug : s.flushQueue.inDebug = s.inDebug := rfl
@[simp] theorem flushQueue_freeze : s.flushQueue.freeze = s.freeze := rfl
@[simp] theorem flushQueue_port : s.flushQueue.port = s.port := rfl
@[simp] theorem flushQueue_icache : s.flushQueue.icache = s.icache := rfl
@[simp] theorem flushQueue_mem : s.flushQueue.mem = s.mem := rfl
@[simp] theorem flushQueue_platform : s.flushQueue.platform = s.platform := rfl
@[simp] theorem flushQueue_events : s.flushQueue.events = s.events := rfl
@[simp] theorem flushQueue_intrusions : s.flushQueue.intrusions = s.intrusions := rfl
@[simp] theorem flushQueue_cutShort : s.flushQueue.cutShort = s.cutShort := rfl
@[simp] theorem flushQueue_freeCount : s.flushQueue.freeCount = s.freeCount := rfl
@[simp] theorem flushQueue_lbus : s.flushQueue.lbus = s.lbus := rfl
@[simp] theorem flushQueue_excTaken : s.flushQueue.excTaken = s.excTaken := rfl

/-! `writeBytes` -/

@[simp] theorem writeBytes_gpr (a : Word) (bs : List Byte) : (s.writeBytes a bs).gpr = s.gpr := by simp [State.writeBytes]
@[simp] theorem writeBytes_fpr (a : Word) (bs : List Byte) : (s.writeBytes a bs).fpr = s.fpr := by simp [State.writeBytes]
@[simp] theorem writeBytes_pc (a : Word) (bs : List Byte) : (s.writeBytes a bs).pc = s.pc := by simp [State.writeBytes]
@[simp] theorem writeBytes_cr (a : Word) (bs : List Byte) : (s.writeBytes a bs).cr = s.cr := by simp [State.writeBytes]
@[simp] theorem writeBytes_xer (a : Word) (bs : List Byte) : (s.writeBytes a bs).xer = s.xer := by simp [State.writeBytes]
@[simp] theorem writeBytes_lr (a : Word) (bs : List Byte) : (s.writeBytes a bs).lr = s.lr := by simp [State.writeBytes]
@[simp] theorem writeBytes_ctr (a : Word) (bs : List Byte) : (s.writeBytes a bs).ctr = s.ctr := by simp [State.writeBytes]
@[simp] theorem writeBytes_fpscr (a : Word) (bs : List Byte) : (s.writeBytes a bs).fpscr = s.fpscr := by simp [State.writeBytes]
@[simp] theorem writeBytes_msr (a : Word) (bs : List Byte) : (s.writeBytes a bs).msr = s.msr := by simp [State.writeBytes]
@[simp] theorem writeBytes_tb (a : Word) (bs : List Byte) : (s.writeBytes a bs).tb = s.tb := by simp [State.writeBytes]
@[simp] theorem writeBytes_dec (a : Word) (bs : List Byte) : (s.writeBytes a bs).dec = s.dec := by simp [State.writeBytes]
@[simp] theorem writeBytes_dsisr (a : Word) (bs : List Byte) : (s.writeBytes a bs).dsisr = s.dsisr := by simp [State.writeBytes]
@[simp] theorem writeBytes_dar (a : Word) (bs : List Byte) : (s.writeBytes a bs).dar = s.dar := by simp [State.writeBytes]
@[simp] theorem writeBytes_srr0 (a : Word) (bs : List Byte) : (s.writeBytes a bs).srr0 = s.srr0 := by simp [State.writeBytes]
@[simp] theorem writeBytes_srr1 (a : Word) (bs : List Byte) : (s.writeBytes a bs).srr1 = s.srr1 := by simp [State.writeBytes]
@[simp] theorem writeBytes_sprg0 (a : Word) (bs : List Byte) : (s.writeBytes a bs).sprg0 = s.sprg0 := by simp [State.writeBytes]
@[simp] theorem writeBytes_sprg1 (a : Word) (bs : List Byte) : (s.writeBytes a bs).sprg1 = s.sprg1 := by simp [State.writeBytes]
@[simp] theorem writeBytes_sprg2 (a : Word) (bs : List Byte) : (s.writeBytes a bs).sprg2 = s.sprg2 := by simp [State.writeBytes]
@[simp] theorem writeBytes_sprg3 (a : Word) (bs : List Byte) : (s.writeBytes a bs).sprg3 = s.sprg3 := by simp [State.writeBytes]
@[simp] theorem writeBytes_fpecr (a : Word) (bs : List Byte) : (s.writeBytes a bs).fpecr = s.fpecr := by simp [State.writeBytes]
@[simp] theorem writeBytes_iccst (a : Word) (bs : List Byte) : (s.writeBytes a bs).iccst = s.iccst := by simp [State.writeBytes]
@[simp] theorem writeBytes_icadr (a : Word) (bs : List Byte) : (s.writeBytes a bs).icadr = s.icadr := by simp [State.writeBytes]
@[simp] theorem writeBytes_cmpA (a : Word) (bs : List Byte) : (s.writeBytes a bs).cmpA = s.cmpA := by simp [State.writeBytes]
@[simp] theorem writeBytes_cmpB (a : Word) (bs : List Byte) : (s.writeBytes a bs).cmpB = s.cmpB := by simp [State.writeBytes]
@[simp] theorem writeBytes_cmpC (a : Word) (bs : List Byte) : (s.writeBytes a bs).cmpC = s.cmpC := by simp [State.writeBytes]
@[simp] theorem writeBytes_cmpD (a : Word) (bs : List Byte) : (s.writeBytes a bs).cmpD = s.cmpD := by simp [State.writeBytes]
@[simp] theorem writeBytes_cmpE (a : Word) (bs : List Byte) : (s.writeBytes a bs).cmpE = s.cmpE := by simp [State.writeBytes]
@[simp] theorem writeBytes_cmpF (a : Word) (bs : List Byte) : (s.writeBytes a bs).cmpF = s.cmpF := by simp [State.writeBytes]
@[simp] theorem writeBytes_cmpG (a : Word) (bs : List Byte) : (s.writeBytes a bs).cmpG = s.cmpG := by simp [State.writeBytes]
@[simp] theorem writeBytes_cmpH (a : Word) (bs : List Byte) : (s.writeBytes a bs).cmpH = s.cmpH := by simp [State.writeBytes]
@[simp] theorem writeBytes_ecr (a : Word) (bs : List Byte) : (s.writeBytes a bs).ecr = s.ecr := by simp [State.writeBytes]
@[simp] theorem writeBytes_der (a : Word) (bs : List Byte) : (s.writeBytes a bs).der = s.der := by simp [State.writeBytes]
@[simp] theorem writeBytes_countA (a : Word) (bs : List Byte) : (s.writeBytes a bs).countA = s.countA := by simp [State.writeBytes]
@[simp] theorem writeBytes_countB (a : Word) (bs : List Byte) : (s.writeBytes a bs).countB = s.countB := by simp [State.writeBytes]
@[simp] theorem writeBytes_lctrl1 (a : Word) (bs : List Byte) : (s.writeBytes a bs).lctrl1 = s.lctrl1 := by simp [State.writeBytes]
@[simp] theorem writeBytes_lctrl2 (a : Word) (bs : List Byte) : (s.writeBytes a bs).lctrl2 = s.lctrl2 := by simp [State.writeBytes]
@[simp] theorem writeBytes_ictrl (a : Word) (bs : List Byte) : (s.writeBytes a bs).ictrl = s.ictrl := by simp [State.writeBytes]
@[simp] theorem writeBytes_bar (a : Word) (bs : List Byte) : (s.writeBytes a bs).bar = s.bar := by simp [State.writeBytes]
@[simp] theorem writeBytes_reservation (a : Word) (bs : List Byte) : (s.writeBytes a bs).reservation = s.reservation := by simp [State.writeBytes]
@[simp] theorem writeBytes_decPending (a : Word) (bs : List Byte) : (s.writeBytes a bs).decPending = s.decPending := by simp [State.writeBytes]
@[simp] theorem writeBytes_irq (a : Word) (bs : List Byte) : (s.writeBytes a bs).irq = s.irq := by simp [State.writeBytes]
@[simp] theorem writeBytes_nmiPending (a : Word) (bs : List Byte) : (s.writeBytes a bs).nmiPending = s.nmiPending := by simp [State.writeBytes]
@[simp] theorem writeBytes_nmiAtReset (a : Word) (bs : List Byte) : (s.writeBytes a bs).nmiAtReset = s.nmiAtReset := by simp [State.writeBytes]
@[simp] theorem writeBytes_mebPending (a : Word) (bs : List Byte) : (s.writeBytes a bs).mebPending = s.mebPending := by simp [State.writeBytes]
@[simp] theorem writeBytes_resetAsserted (a : Word) (bs : List Byte) : (s.writeBytes a bs).resetAsserted = s.resetAsserted := by simp [State.writeBytes]
@[simp] theorem writeBytes_checkstop (a : Word) (bs : List Byte) : (s.writeBytes a bs).checkstop = s.checkstop := by simp [State.writeBytes]
@[simp] theorem writeBytes_debugEnabled (a : Word) (bs : List Byte) : (s.writeBytes a bs).debugEnabled = s.debugEnabled := by simp [State.writeBytes]
@[simp] theorem writeBytes_inDebug (a : Word) (bs : List Byte) : (s.writeBytes a bs).inDebug = s.inDebug := by simp [State.writeBytes]
@[simp] theorem writeBytes_freeze (a : Word) (bs : List Byte) : (s.writeBytes a bs).freeze = s.freeze := by simp [State.writeBytes]
@[simp] theorem writeBytes_port (a : Word) (bs : List Byte) : (s.writeBytes a bs).port = s.port := by simp [State.writeBytes]
@[simp] theorem writeBytes_icache (a : Word) (bs : List Byte) : (s.writeBytes a bs).icache = s.icache := by simp [State.writeBytes]
@[simp] theorem writeBytes_platform (a : Word) (bs : List Byte) : (s.writeBytes a bs).platform = s.platform := by simp [State.writeBytes]
@[simp] theorem writeBytes_events (a : Word) (bs : List Byte) : (s.writeBytes a bs).events = s.events := by simp [State.writeBytes]
@[simp] theorem writeBytes_intrusions (a : Word) (bs : List Byte) : (s.writeBytes a bs).intrusions = s.intrusions := by simp [State.writeBytes]
@[simp] theorem writeBytes_cutShort (a : Word) (bs : List Byte) : (s.writeBytes a bs).cutShort = s.cutShort := by simp [State.writeBytes]
@[simp] theorem writeBytes_freeCount (a : Word) (bs : List Byte) : (s.writeBytes a bs).freeCount = s.freeCount := by simp [State.writeBytes]
@[simp] theorem writeBytes_lbus (a : Word) (bs : List Byte) : (s.writeBytes a bs).lbus = s.lbus := by simp [State.writeBytes]
@[simp] theorem writeBytes_excTaken (a : Word) (bs : List Byte) : (s.writeBytes a bs).excTaken = s.excTaken := by simp [State.writeBytes]

/-! `entryBar` -/

@[simp] theorem entryBar_gpr (x : Exc) : (s.entryBar x).gpr = s.gpr := by unfold State.entryBar; split <;> rfl
@[simp] theorem entryBar_fpr (x : Exc) : (s.entryBar x).fpr = s.fpr := by unfold State.entryBar; split <;> rfl
@[simp] theorem entryBar_pc (x : Exc) : (s.entryBar x).pc = s.pc := by unfold State.entryBar; split <;> rfl
@[simp] theorem entryBar_cr (x : Exc) : (s.entryBar x).cr = s.cr := by unfold State.entryBar; split <;> rfl
@[simp] theorem entryBar_xer (x : Exc) : (s.entryBar x).xer = s.xer := by unfold State.entryBar; split <;> rfl
@[simp] theorem entryBar_lr (x : Exc) : (s.entryBar x).lr = s.lr := by unfold State.entryBar; split <;> rfl
@[simp] theorem entryBar_ctr (x : Exc) : (s.entryBar x).ctr = s.ctr := by unfold State.entryBar; split <;> rfl
@[simp] theorem entryBar_fpscr (x : Exc) : (s.entryBar x).fpscr = s.fpscr := by unfold State.entryBar; split <;> rfl
@[simp] theorem entryBar_msr (x : Exc) : (s.entryBar x).msr = s.msr := by unfold State.entryBar; split <;> rfl
@[simp] theorem entryBar_tb (x : Exc) : (s.entryBar x).tb = s.tb := by unfold State.entryBar; split <;> rfl
@[simp] theorem entryBar_dec (x : Exc) : (s.entryBar x).dec = s.dec := by unfold State.entryBar; split <;> rfl
@[simp] theorem entryBar_dsisr (x : Exc) : (s.entryBar x).dsisr = s.dsisr := by unfold State.entryBar; split <;> rfl
@[simp] theorem entryBar_dar (x : Exc) : (s.entryBar x).dar = s.dar := by unfold State.entryBar; split <;> rfl
@[simp] theorem entryBar_srr0 (x : Exc) : (s.entryBar x).srr0 = s.srr0 := by unfold State.entryBar; split <;> rfl
@[simp] theorem entryBar_srr1 (x : Exc) : (s.entryBar x).srr1 = s.srr1 := by unfold State.entryBar; split <;> rfl
@[simp] theorem entryBar_sprg0 (x : Exc) : (s.entryBar x).sprg0 = s.sprg0 := by unfold State.entryBar; split <;> rfl
@[simp] theorem entryBar_sprg1 (x : Exc) : (s.entryBar x).sprg1 = s.sprg1 := by unfold State.entryBar; split <;> rfl
@[simp] theorem entryBar_sprg2 (x : Exc) : (s.entryBar x).sprg2 = s.sprg2 := by unfold State.entryBar; split <;> rfl
@[simp] theorem entryBar_sprg3 (x : Exc) : (s.entryBar x).sprg3 = s.sprg3 := by unfold State.entryBar; split <;> rfl
@[simp] theorem entryBar_fpecr (x : Exc) : (s.entryBar x).fpecr = s.fpecr := by unfold State.entryBar; split <;> rfl
@[simp] theorem entryBar_iccst (x : Exc) : (s.entryBar x).iccst = s.iccst := by unfold State.entryBar; split <;> rfl
@[simp] theorem entryBar_icadr (x : Exc) : (s.entryBar x).icadr = s.icadr := by unfold State.entryBar; split <;> rfl
@[simp] theorem entryBar_cmpA (x : Exc) : (s.entryBar x).cmpA = s.cmpA := by unfold State.entryBar; split <;> rfl
@[simp] theorem entryBar_cmpB (x : Exc) : (s.entryBar x).cmpB = s.cmpB := by unfold State.entryBar; split <;> rfl
@[simp] theorem entryBar_cmpC (x : Exc) : (s.entryBar x).cmpC = s.cmpC := by unfold State.entryBar; split <;> rfl
@[simp] theorem entryBar_cmpD (x : Exc) : (s.entryBar x).cmpD = s.cmpD := by unfold State.entryBar; split <;> rfl
@[simp] theorem entryBar_cmpE (x : Exc) : (s.entryBar x).cmpE = s.cmpE := by unfold State.entryBar; split <;> rfl
@[simp] theorem entryBar_cmpF (x : Exc) : (s.entryBar x).cmpF = s.cmpF := by unfold State.entryBar; split <;> rfl
@[simp] theorem entryBar_cmpG (x : Exc) : (s.entryBar x).cmpG = s.cmpG := by unfold State.entryBar; split <;> rfl
@[simp] theorem entryBar_cmpH (x : Exc) : (s.entryBar x).cmpH = s.cmpH := by unfold State.entryBar; split <;> rfl
@[simp] theorem entryBar_ecr (x : Exc) : (s.entryBar x).ecr = s.ecr := by unfold State.entryBar; split <;> rfl
@[simp] theorem entryBar_der (x : Exc) : (s.entryBar x).der = s.der := by unfold State.entryBar; split <;> rfl
@[simp] theorem entryBar_countA (x : Exc) : (s.entryBar x).countA = s.countA := by unfold State.entryBar; split <;> rfl
@[simp] theorem entryBar_countB (x : Exc) : (s.entryBar x).countB = s.countB := by unfold State.entryBar; split <;> rfl
@[simp] theorem entryBar_lctrl1 (x : Exc) : (s.entryBar x).lctrl1 = s.lctrl1 := by unfold State.entryBar; split <;> rfl
@[simp] theorem entryBar_lctrl2 (x : Exc) : (s.entryBar x).lctrl2 = s.lctrl2 := by unfold State.entryBar; split <;> rfl
@[simp] theorem entryBar_ictrl (x : Exc) : (s.entryBar x).ictrl = s.ictrl := by unfold State.entryBar; split <;> rfl
@[simp] theorem entryBar_reservation (x : Exc) : (s.entryBar x).reservation = s.reservation := by unfold State.entryBar; split <;> rfl
@[simp] theorem entryBar_decPending (x : Exc) : (s.entryBar x).decPending = s.decPending := by unfold State.entryBar; split <;> rfl
@[simp] theorem entryBar_irq (x : Exc) : (s.entryBar x).irq = s.irq := by unfold State.entryBar; split <;> rfl
@[simp] theorem entryBar_nmiPending (x : Exc) : (s.entryBar x).nmiPending = s.nmiPending := by unfold State.entryBar; split <;> rfl
@[simp] theorem entryBar_nmiAtReset (x : Exc) : (s.entryBar x).nmiAtReset = s.nmiAtReset := by unfold State.entryBar; split <;> rfl
@[simp] theorem entryBar_mebPending (x : Exc) : (s.entryBar x).mebPending = s.mebPending := by unfold State.entryBar; split <;> rfl
@[simp] theorem entryBar_resetAsserted (x : Exc) : (s.entryBar x).resetAsserted = s.resetAsserted := by unfold State.entryBar; split <;> rfl
@[simp] theorem entryBar_checkstop (x : Exc) : (s.entryBar x).checkstop = s.checkstop := by unfold State.entryBar; split <;> rfl
@[simp] theorem entryBar_debugEnabled (x : Exc) : (s.entryBar x).debugEnabled = s.debugEnabled := by unfold State.entryBar; split <;> rfl
@[simp] theorem entryBar_inDebug (x : Exc) : (s.entryBar x).inDebug = s.inDebug := by unfold State.entryBar; split <;> rfl
@[simp] theorem entryBar_freeze (x : Exc) : (s.entryBar x).freeze = s.freeze := by unfold State.entryBar; split <;> rfl
@[simp] theorem entryBar_port (x : Exc) : (s.entryBar x).port = s.port := by unfold State.entryBar; split <;> rfl
@[simp] theorem entryBar_icache (x : Exc) : (s.entryBar x).icache = s.icache := by unfold State.entryBar; split <;> rfl
@[simp] theorem entryBar_stale (x : Exc) : (s.entryBar x).stale = s.stale := by unfold State.entryBar; split <;> rfl
@[simp] theorem entryBar_mem (x : Exc) : (s.entryBar x).mem = s.mem := by unfold State.entryBar; split <;> rfl
@[simp] theorem entryBar_platform (x : Exc) : (s.entryBar x).platform = s.platform := by unfold State.entryBar; split <;> rfl
@[simp] theorem entryBar_events (x : Exc) : (s.entryBar x).events = s.events := by unfold State.entryBar; split <;> rfl
@[simp] theorem entryBar_intrusions (x : Exc) : (s.entryBar x).intrusions = s.intrusions := by unfold State.entryBar; split <;> rfl
@[simp] theorem entryBar_cutShort (x : Exc) : (s.entryBar x).cutShort = s.cutShort := by unfold State.entryBar; split <;> rfl
@[simp] theorem entryBar_lbus (x : Exc) : (s.entryBar x).lbus = s.lbus := by unfold State.entryBar; split <;> rfl
@[simp] theorem entryBar_excTaken (x : Exc) : (s.entryBar x).excTaken = s.excTaken := by unfold State.entryBar; split <;> rfl

end Sys2Proof.Laws
end

