-- ==== Sys2Proof/Laws/Memory.lean ====
section
/-! SUPPORT. Memory: the canonical form is kept, a byte reads as it was written, other bytes are left alone. -/

namespace Sys2Proof.Laws

open Sys2Proof Sys2Proof.Machine

/-- Cells above `low` lie above any smaller bound. -/
theorem wfFrom_mono {low low' : Nat} (h : low' ≤ low) : ∀ {m : List Host.Cell}, Memory.wfFrom low m = true →
    Memory.wfFrom low' m = true
  | [], _ => rfl
  | (k, v) :: rest, hm => by
    simp only [Memory.wfFrom, Bool.and_eq_true, decide_eq_true_eq] at *
    exact ⟨⟨⟨by omega, hm.1.1.2⟩, hm.1.2⟩, hm.2⟩

/-- An address below all cells reads as an unlisted byte. -/
theorem memRead_below {low a : Nat} (h : a < low) : ∀ {m : List Host.Cell}, Memory.wfFrom low m = true →
    memRead m a = unlistedByte
  | [], _ => rfl
  | (k, v) :: rest, hm => by
    simp only [Memory.wfFrom, Bool.and_eq_true, decide_eq_true_eq] at hm
    rw [memRead, if_neg (by omega)]
    exact memRead_below (by omega) hm.2

/-- A write keeps the canonical form. -/
theorem memWrite_wfFrom {a : Nat} (b : Byte) (ha : a < 2 ^ 32) : ∀ {low : Nat} {m : List Host.Cell}, low ≤ a →
    Memory.wfFrom low m = true → Memory.wfFrom low (memWrite m a b) = true
  | low, [], hl, _ => by
    by_cases hb : b = unlistedByte
    · simp [memWrite, hb, Memory.wfFrom]
    · simp [memWrite, hb, Memory.wfFrom, hl]; omega
  | low, (k, v) :: rest, hl, hm => by
    have hm' := hm
    simp only [Memory.wfFrom, Bool.and_eq_true, decide_eq_true_eq] at hm
    obtain ⟨⟨⟨h1, h2⟩, h3⟩, h4⟩ := hm
    rw [memWrite]
    by_cases hlt : a < k
    · rw [if_pos hlt]
      by_cases hb : b = unlistedByte
      · rw [if_pos hb]; exact hm'
      · rw [if_neg hb]
        simp only [Memory.wfFrom, Bool.and_eq_true, decide_eq_true_eq]
        exact ⟨⟨⟨hl, ha⟩, hb⟩, ⟨⟨⟨by omega, h2⟩, h3⟩, h4⟩⟩
    · rw [if_neg hlt]
      by_cases he : a = k
      · rw [if_pos he]
        by_cases hb : b = unlistedByte
        · rw [if_pos hb]; exact wfFrom_mono (by omega) h4
        · rw [if_neg hb]
          simp only [Memory.wfFrom, Bool.and_eq_true, decide_eq_true_eq]
          exact ⟨⟨⟨hl, ha⟩, hb⟩, by rw [he]; exact h4⟩
      · rw [if_neg he]
        simp only [Memory.wfFrom, Bool.and_eq_true, decide_eq_true_eq]
        exact ⟨⟨⟨h1, h2⟩, h3⟩, memWrite_wfFrom b ha (by omega) h4⟩

/-- Reading after a write. -/
theorem memRead_memWrite (a c : Nat) (b : Byte) : ∀ {low : Nat} {m : List Host.Cell}, Memory.wfFrom low m = true →
    memRead (memWrite m a b) c = if c = a then b else memRead m c
  | low, [], _ => by
    by_cases hb : b = unlistedByte
    · by_cases hc : c = a <;> simp [memWrite, memRead, hb]
    · by_cases hc : c = a <;> simp [memWrite, memRead, hb, hc]
  | low, (k, v) :: rest, hm => by
    have hm' := hm
    simp only [Memory.wfFrom, Bool.and_eq_true, decide_eq_true_eq] at hm
    obtain ⟨⟨⟨h1, h2⟩, h3⟩, h4⟩ := hm
    rw [memWrite]
    by_cases hlt : a < k
    · rw [if_pos hlt]
      by_cases hb : b = unlistedByte
      · rw [if_pos hb]
        by_cases hc : c = a
        · rw [if_pos hc, memRead, if_neg (by omega), memRead_below (by omega) h4, hb]
        · rw [if_neg hc]
      · rw [if_neg hb]
        by_cases hc : c = a
        · rw [if_pos hc, memRead, if_pos hc]
        · rw [if_neg hc, memRead, if_neg hc]
    · rw [if_neg hlt]
      by_cases he : a = k
      · rw [if_pos he]
        by_cases hb : b = unlistedByte
        · rw [if_pos hb]
          by_cases hc : c = a
          · rw [if_pos hc, memRead_below (by omega) h4, hb]
          · rw [if_neg hc, memRead, if_neg (by omega)]
        · rw [if_neg hb]
          by_cases hc : c = a
          · rw [if_pos hc, memRead, if_pos hc]
          · rw [if_neg hc, memRead, if_neg hc, memRead, if_neg (by omega)]
      · rw [if_neg he]
        by_cases hc : c = k
        · rw [memRead, if_pos hc, if_neg (by omega), memRead, if_pos hc]
        · rw [memRead, if_neg hc, memRead_memWrite a c b h4, memRead, if_neg hc]

/-- A write keeps the canonical form of memory. -/
theorem memWrite_wf (m : List Host.Cell) (a : Word) (b : Byte) (h : Memory.wf m = true) :
    Memory.wf (memWrite m a.toNat b) = true :=
  memWrite_wfFrom b a.isLt (Nat.zero_le _) h

/-- Storing bytes keeps the canonical form of memory. -/
theorem putBytes_wf : ∀ (bs : List Byte) (m : List Host.Cell) (a : Word), Memory.wf m = true →
    Memory.wf (putBytes m a bs) = true
  | [], _, _, h => h
  | b :: bs, m, a, h => putBytes_wf bs (memWrite m a.toNat b) (a + 1) (memWrite_wf m a b h)

/-- A byte of memory after storing fewer than 2^32 bytes: the stored one, or the old one. -/
theorem memRead_putBytes : ∀ (bs : List Byte) (m : List Host.Cell) (a c : Word), Memory.wf m = true →
    bs.length < 2 ^ 32 →
    memRead (putBytes m a bs) c.toNat = (bs[(c - a).toNat]?).getD (memRead m c.toNat)
  | [], m, a, c, _, _ => by simp [putBytes]
  | b :: bs, m, a, c, h, hl => by
    simp only [List.length_cons] at hl
    rw [putBytes, memRead_putBytes bs _ _ _ (memWrite_wf m a b h) (by omega), memRead_memWrite _ _ _ h]
    by_cases hc : c = a
    · subst hc
      have h1 : (c - (c + 1)).toNat = 2 ^ 32 - 1 := by
        have : c - (c + 1) = 4294967295#32 := by bv_omega
        rw [this]; rfl
      rw [h1, List.getElem?_eq_none (by omega)]
      simp
    · have hne : c.toNat ≠ a.toNat := fun e => hc (BitVec.eq_of_toNat_eq e)
      have h2 : (c - a).toNat = (c - (a + 1)).toNat + 1 := by bv_omega
      rw [h2, List.getElem?_cons_succ, if_neg hne]

/-- A byte read after `writeBytes`. -/
theorem byteAt_writeBytes (s : State) (a c : Word) (bs : List Byte) (h : Memory.wf s.mem = true)
    (hl : bs.length < 2 ^ 32) :
    (s.writeBytes a bs).byteAt c = (bs[(c - a).toNat]?).getD (s.byteAt c) := by
  unfold State.byteAt State.writeBytes
  simp only [noteStale_mem]
  exact memRead_putBytes bs s.mem a c h hl

/-- `writeBytes` keeps the canonical form. -/
theorem writeBytes_wf (s : State) (a : Word) (bs : List Byte) (h : Memory.wf s.mem = true) :
    Memory.wf (s.writeBytes a bs).mem = true := by
  unfold State.writeBytes
  simp only [noteStale_mem]
  exact putBytes_wf bs s.mem a h

/-! Writes of other bus masters. -/

/-- A byte written by another bus master: only memory, the older versions for fetches and the reservation change. -/
theorem busWrite_frame (s : State) (a : Word) (v : Byte) :
    s.busWrite a v =
      { s with
        mem := (s.busWrite a v).mem, stale := (s.busWrite a v).stale, reservation := (s.busWrite a v).reservation } := by
  unfold State.busWrite State.writeBytes State.noteStale
  dsimp only
  split <;> split <;> rfl

theorem busWrite_wf (s : State) (a : Word) (v : Byte) (h : Memory.wf s.mem = true) :
    Memory.wf (s.busWrite a v).mem = true := by
  unfold State.busWrite
  dsimp only
  split <;> exact writeBytes_wf _ _ _ h

/-- Several of them, in order. -/
theorem busWrites_frame : ∀ (l : List Intrusion) (s : State),
    s.busWrites l =
      { s with mem := (s.busWrites l).mem, stale := (s.busWrites l).stale, reservation := (s.busWrites l).reservation }
  | [], _ => rfl
  | i :: l, s => by
    have h : s.busWrites (i :: l) = (s.busWrite i.addr i.value).busWrites l := rfl
    have h1 := busWrites_frame l (s.busWrite i.addr i.value)
    have h2 := busWrite_frame s i.addr i.value
    rw [h]
    generalize (s.busWrite i.addr i.value).busWrites l = u at h1 ⊢
    rw [h2] at h1
    exact h1

theorem busWrites_wf : ∀ (l : List Intrusion) (s : State), Memory.wf s.mem = true → Memory.wf (s.busWrites l).mem = true
  | [], _, h => h
  | i :: l, s, h => busWrites_wf l (s.busWrite i.addr i.value) (busWrite_wf s i.addr i.value h)

/-- Where no writes are to come during an instruction, none come between its cycles or after it. -/
@[simp] theorem intrude_nil {s : State} (h : s.intrusions = []) : s.intrude = s := by
  unfold State.intrude
  split
  · rfl
  · cases s; cases h; rfl

@[simp] theorem settle_nil {s : State} (h : s.intrusions = []) : s.settle = s := by
  cases s; cases h; rfl

theorem intrude_wf (s : State) (h : Memory.wf s.mem = true) : Memory.wf s.intrude.mem = true := by
  unfold State.intrude
  split
  · exact h
  · exact busWrites_wf _ _ h

theorem settle_wf (s : State) (h : Memory.wf s.mem = true) : Memory.wf s.settle.mem = true := busWrites_wf _ _ h

end Sys2Proof.Laws
end

