-- ==== Sys2Proof/Laws/Bits.lean ====
section
/-! SUPPORT. Bits of words: what each bit operation does to each bit. -/

namespace Sys2Proof.Laws

open Sys2Proof Sys2Proof.Machine

/-- Words with equal bits are equal. -/
theorem eq_of_bit {a b : Word} (h : ∀ k, k < 32 → bit a k = bit b k) : a = b := by
  apply BitVec.eq_of_getLsbD_eq
  intro i hi
  have := h (31 - i) (by omega)
  simpa [bit, show 31 - (31 - i) = i by omega] using this

@[simp] theorem bit_and (a b : Word) (k : Nat) : bit (a &&& b) k = (bit a k && bit b k) := by simp [bit]
@[simp] theorem bit_or (a b : Word) (k : Nat) : bit (a ||| b) k = (bit a k || bit b k) := by simp [bit]
@[simp] theorem bit_xor (a b : Word) (k : Nat) : bit (a ^^^ b) k = (bit a k != bit b k) := by simp [bit]
@[simp] theorem bit_not (a : Word) (k : Nat) : bit (~~~a) k = !bit a k := by
  simp [bit, show 31 - k < 32 by omega]
@[simp] theorem bit_zero (k : Nat) : bit 0#32 k = false := by simp [bit]

theorem bit_bitMask (b k : Nat) (hb : b < 32) (hk : k < 32) : bit (bitMask b) k = decide (k = b) := by
  simp only [bit, bitMask, BitVec.getLsbD_twoPow]
  rw [Bool.eq_iff_iff]; simp; omega

/-- `setBit` writes one bit. -/
theorem bit_setBit (w : Word) (b k : Nat) (v : Bool) (hb : b < 32) (hk : k < 32) :
    bit (setBit w b v) k = if k = b then v else bit w k := by
  unfold setBit
  cases v <;> simp [bit_bitMask b k hb hk] <;> by_cases h : k = b <;> simp [h]

/-- `insertBits` takes the bits of the mask from the new value. -/
@[simp] theorem bit_insertBits (w m v : Word) (k : Nat) :
    bit (insertBits w m v) k = if bit m k then bit v k else bit w k := by
  unfold insertBits
  cases h : bit m k <;> simp [h]

/-- A field is a function of the bits. -/
theorem bits_getLsbD (w : Word) (first len i : Nat) (hi : i < len) (hl : first + len ≤ 32) :
    (bits w first len).getLsbD i = bit w (first + len - 1 - i) := by
  simp [bits, bit, hi]
  congr 1; omega

/-- Fields with equal bits are equal. -/
theorem bits_congr {a b : Word} {first len : Nat} (hl : first + len ≤ 32)
    (h : ∀ k, first ≤ k → k < first + len → bit a k = bit b k) : bits a first len = bits b first len := by
  apply BitVec.eq_of_getLsbD_eq
  intro i hi
  rw [bits_getLsbD a first len i hi hl, bits_getLsbD b first len i hi hl]
  exact h _ (by omega) (by omega)

/-! The condition register. -/

theorem crMask_bit (f : BitVec 3) (k : Nat) (hk : k < 32) :
    bit (0xF0000000#32 >>> (4 * f.toNat)) k = decide (k / 4 = f.toNat) := by
  have hf : f.toNat < 8 := f.isLt
  generalize f.toNat = n at hf
  interval_cases n <;> interval_cases k <;> decide

theorem crValue_bit (f : BitVec 3) (v : BitVec 4) (k : Nat) (hk : k < 32) (h : k / 4 = f.toNat) :
    bit (v.setWidth 32 <<< (28 - 4 * f.toNat)) k = v.getLsbD (3 - k % 4) := by
  have hf : f.toNat < 8 := f.isLt
  simp only [bit, BitVec.getLsbD_shiftLeft, BitVec.getLsbD_setWidth]
  have : 31 - k - (28 - 4 * f.toNat) = 3 - k % 4 := by omega
  rw [this, decide_eq_true (show 31 - k < 32 by omega), decide_eq_false (show ¬31 - k < 28 - 4 * f.toNat by omega),
    decide_eq_true (show 3 - k % 4 < 32 by omega)]
  simp

/-- Writing a CR field writes its four bits. -/
theorem bit_setCrField (cr : Word) (f : BitVec 3) (v : BitVec 4) (k : Nat) (hk : k < 32) :
    bit (setCrField cr f v) k = if k / 4 = f.toNat then v.getLsbD (3 - k % 4) else bit cr k := by
  unfold setCrField
  rw [bit_insertBits, crMask_bit f k hk]
  by_cases h : k / 4 = f.toNat
  · simp [h, crValue_bit f v k hk h]
  · simp [h]

@[simp] theorem crField_setCrField_same (cr : Word) (f : BitVec 3) (v : BitVec 4) : crField (setCrField cr f v) f = v := by
  have hf : f.toNat < 8 := f.isLt
  apply BitVec.eq_of_getLsbD_eq
  intro i hi
  rw [crField, bits_getLsbD _ _ _ i hi (by omega), bit_setCrField _ _ _ _ (by omega), if_pos (by omega)]
  congr 1; omega

theorem crField_setCrField_ne (cr : Word) (f g : BitVec 3) (v : BitVec 4) (h : g ≠ f) :
    crField (setCrField cr f v) g = crField cr g := by
  have hf : f.toNat < 8 := f.isLt
  have hg : g.toNat < 8 := g.isLt
  have hne : g.toNat ≠ f.toNat := fun e => h (BitVec.eq_of_toNat_eq e)
  apply bits_congr (by omega)
  intro k h1 h2
  rw [bit_setCrField _ _ _ _ (by omega), if_neg (by omega)]

/-- A bit outside the mask does not matter under it. -/
theorem setBit_and {w m : Word} {b : Nat} {v : Bool} (hb : b < 32) (hm : bit m b = false) : setBit w b v &&& m = w &&& m := by
  apply eq_of_bit
  intro k hk
  rw [bit_and, bit_and, bit_setBit _ _ _ _ hb hk]
  split
  · subst_vars; simp [hm]
  · rfl

/-! Values within a mask. -/

theorem within_iff (v m : Word) : within v m ↔ ∀ k, k < 32 → bit v k = true → bit m k = true := by
  unfold within
  constructor
  · intro h k _ hv
    have := congrArg (fun w => bit w k) h
    simpa [hv] using this
  · intro h
    apply eq_of_bit
    intro k hk
    cases hv : bit v k
    · simp [hv]
    · simp [hv, h k hk hv]

theorem within_zero (m : Word) : within 0 m := by simp [within]
theorem within_and (v m : Word) : within (v &&& m) m := by rw [within_iff]; simp
theorem within_and_left {v m : Word} (w : Word) (h : within v m) : within (v &&& w) m := by
  rw [within_iff] at *; intro k hk; simp; intro h1 _; exact h k hk h1

theorem within_setBit {w m : Word} {b : Nat} {v : Bool} (hb : b < 32) (hm : bit m b = true) (h : within w m) :
    within (setBit w b v) m := by
  rw [within_iff] at *
  intro k hk
  rw [bit_setBit _ _ _ _ hb hk]
  split
  · subst_vars; intro _; exact hm
  · exact h k hk

theorem within_insertBits {w m n v : Word} (h : within w m) (hn : within n m) : within (insertBits w n v) m := by
  rw [within_iff] at *
  intro k hk
  rw [bit_insertBits]
  split
  · intro _; exact hn k hk ‹_›
  · exact h k hk

end Sys2Proof.Laws
end

