-- ==== Sys2Proof/Laws/Registers.lean ====
section
/-! SUPPORT. Reading registers and flags after an update. -/

namespace Sys2Proof.Laws

open Sys2Proof Sys2Proof.Machine

variable (s : State)

/-! General and floating-point registers. -/

theorem r_setR (n m : Reg) (v : Word) : (s.setR n v).r m = if m = n then v else s.r m := by
  simp only [State.r, State.setR, Vector.getElem_set]
  by_cases h : m = n
  · simp [h]
  · have : n.toNat ≠ m.toNat := fun e => h (BitVec.eq_of_toNat_eq e.symm)
    simp [h, this]

@[simp] theorem r_setR_same (n : Reg) (v : Word) : (s.setR n v).r n = v := by simp [r_setR]
theorem r_setR_ne {n m : Reg} (v : Word) (h : m ≠ n) : (s.setR n v).r m = s.r m := by simp [r_setR, h]

theorem f_setF (n m : Reg) (v : Dword) : (s.setF n v).f m = if m = n then v else s.f m := by
  simp only [State.f, State.setF, Vector.getElem_set]
  by_cases h : m = n
  · simp [h]
  · have : n.toNat ≠ m.toNat := fun e => h (BitVec.eq_of_toNat_eq e.symm)
    simp [h, this]

@[simp] theorem f_setF_same (n : Reg) (v : Dword) : (s.setF n v).f n = v := by simp [f_setF]
theorem f_setF_ne {n m : Reg} (v : Dword) (h : m ≠ n) : (s.setF n v).f m = s.f m := by simp [f_setF, h]

/-- States with the same registers read the same. -/
theorem r_congr {s t : State} (h : t.gpr = s.gpr) (n : Reg) : t.r n = s.r n := by simp [State.r, h]
theorem f_congr {s t : State} (h : t.fpr = s.fpr) (n : Reg) : t.f n = s.f n := by simp [State.f, h]
theorem byteAt_congr {s t : State} (h : t.mem = s.mem) (a : Word) : t.byteAt a = s.byteAt a := by
  simp [State.byteAt, h]
theorem wordAt_congr {s t : State} (h : t.mem = s.mem) (a : Word) : t.wordAt a = s.wordAt a := by
  simp [State.wordAt, State.byteAt, h]
theorem sameMemory_of_mem {s t : State} (h : t.mem = s.mem) : sameMemory s t := fun a => byteAt_congr h a

/-! XER. -/

@[simp] theorem xerCA_setCA (c : Bool) : xerCA (s.setCA c).xer = c := by simp [xerCA, State.setCA, bit_setBit]
@[simp] theorem xerOV_setCA (c : Bool) : xerOV (s.setCA c).xer = xerOV s.xer := by simp [xerOV, State.setCA, bit_setBit]
@[simp] theorem xerSO_setCA (c : Bool) : xerSO (s.setCA c).xer = xerSO s.xer := by simp [xerSO, State.setCA, bit_setBit]
@[simp] theorem xerCA_setOV (c : Bool) : xerCA (s.setOV c).xer = xerCA s.xer := by simp [xerCA, State.setOV, bit_setBit]
@[simp] theorem xerOV_setOV (c : Bool) : xerOV (s.setOV c).xer = c := by simp [xerOV, State.setOV, bit_setBit]
@[simp] theorem xerSO_setOV (c : Bool) : xerSO (s.setOV c).xer = (xerSO s.xer || c) := by
  simp [xerSO, State.setOV, bit_setBit]

/-- What the flag updates leave of XER. -/
theorem xerRest_setCA (c : Bool) : (s.setCA c).xer &&& 0x1FFFFFFF#32 = s.xer &&& 0x1FFFFFFF#32 :=
  setBit_and (by decide) (by decide)
theorem xerRest_setOV (c : Bool) : (s.setOV c).xer &&& 0x1FFFFFFF#32 = s.xer &&& 0x1FFFFFFF#32 :=
  (setBit_and (by decide) (by decide)).trans (setBit_and (by decide) (by decide))

end Sys2Proof.Laws
end

