-- ==== Sys2Proof/Laws/Access.lean ====
section
/-! SUPPORT. What a read and a write of an operand do: the bytes delivered, the bytes stored, and that nothing else changes. -/

namespace Sys2Proof.Laws

open Sys2Proof Sys2Proof.Machine

/-! Bytes. -/

@[simp] theorem bytesAt_length (s : State) : ∀ (n : Nat) (a : Word), (s.bytesAt a n).length = n
  | 0, _ => rfl
  | n + 1, a => by rw [State.bytesAt, List.length_cons, bytesAt_length s n (a + 1)]

/-- The `k`-th of the bytes at an address. -/
theorem bytesAt_getElem? (s : State) : ∀ (n : Nat) (a : Word) (k : Nat),
    (s.bytesAt a n)[k]? = if k < n then some (s.byteAt (a + BitVec.ofNat 32 k)) else none
  | 0, _, _ => by simp [State.bytesAt]
  | n + 1, a, 0 => by simp [State.bytesAt]
  | n + 1, a, k + 1 => by
    have : a + 1 + BitVec.ofNat 32 k = a + BitVec.ofNat 32 (k + 1) := by
      rw [BitVec.ofNat_add, BitVec.add_assoc, BitVec.add_comm 1]; rfl
    rw [State.bytesAt, List.getElem?_cons_succ, bytesAt_getElem? s n (a + 1) k, this]
    simp only [Nat.add_lt_add_iff_right]

theorem bytesAt_congr {s t : State} (h : t.mem = s.mem) : ∀ (n : Nat) (a : Word), t.bytesAt a n = s.bytesAt a n
  | 0, _ => rfl
  | n + 1, a => by simp [State.bytesAt, byteAt_congr h, bytesAt_congr h n]

theorem bytesAt_append (s : State) : ∀ (m n : Nat) (a : Word),
    s.bytesAt a (m + n) = s.bytesAt a m ++ s.bytesAt (a + BitVec.ofNat 32 m) n
  | 0, n, a => by simp [State.bytesAt]
  | m + 1, n, a => by
    have : a + 1 + BitVec.ofNat 32 m = a + BitVec.ofNat 32 (m + 1) := by
      rw [BitVec.ofNat_add, BitVec.add_assoc, BitVec.add_comm 1]; rfl
    rw [Nat.add_right_comm, State.bytesAt, State.bytesAt, bytesAt_append s m n (a + 1), this]
    rfl

@[simp] theorem bytesOf_length : ∀ (n : Nat) (v : Dword), (bytesOf n v).length = n
  | 0, _ => rfl
  | n + 1, v => by simp [bytesOf, bytesOf_length n v]

/-- The `k`-th of the `n` low bytes of a double word. -/
theorem bytesOf_getElem? : ∀ (n : Nat) (v : Dword) (k : Nat),
    (bytesOf n v)[k]? = if k < n then some (v.extractLsb' (8 * (n - 1 - k)) 8) else none
  | 0, _, _ => by simp [bytesOf]
  | n + 1, v, 0 => by
    simp only [bytesOf, List.getElem?_cons_zero, Nat.zero_lt_succ, if_true, Option.some.injEq]
    apply BitVec.eq_of_getLsbD_eq
    intro i hi
    simp [hi]
  | n + 1, v, k + 1 => by
    rw [bytesOf, List.getElem?_cons_succ, bytesOf_getElem? n v k]
    have : n + 1 - 1 - (k + 1) = n - 1 - k := by omega
    rw [this]
    simp only [Nat.add_lt_add_iff_right]

/-- A number from one, two or four bytes of memory, as a double word. -/
theorem natOfBytes_one (a : Byte) : BitVec.ofNat 64 (natOfBytes [a]) = a.setWidth 64 := by
  apply BitVec.eq_of_toNat_eq
  have := a.isLt
  simp [natOfBytes]

theorem toNat_append8 {n : Nat} (a : BitVec n) (b : Byte) : (a ++ b).toNat = a.toNat * 256 + b.toNat := by
  rw [BitVec.toNat_append, Nat.shiftLeft_eq, Nat.mul_comm, ← Nat.two_pow_add_eq_or_of_lt b.isLt, Nat.mul_comm]

theorem natOfBytes_two (a b : Byte) : BitVec.ofNat 64 (natOfBytes [a, b]) = (a ++ b : BitVec 16).setWidth 64 := by
  apply BitVec.eq_of_toNat_eq
  have := a.isLt
  have := b.isLt
  rw [BitVec.toNat_ofNat, BitVec.toNat_setWidth, toNat_append8]
  simp [natOfBytes]

theorem natOfBytes_four (a b c d : Byte) :
    BitVec.ofNat 64 (natOfBytes [a, b, c, d]) = (a ++ b ++ c ++ d : BitVec 32).setWidth 64 := by
  apply BitVec.eq_of_toNat_eq
  rw [BitVec.toNat_ofNat, BitVec.toNat_setWidth, toNat_append8, toNat_append8, toNat_append8]
  norm_num [natOfBytes]
  omega

theorem natOfBytes_eight (a b c d e f g h : Byte) :
    BitVec.ofNat 64 (natOfBytes [a, b, c, d, e, f, g, h]) =
      (a ++ b ++ c ++ d ++ (e ++ f ++ g ++ h : BitVec 32) : BitVec 64) := by
  apply BitVec.eq_of_toNat_eq
  have h1 : (a ++ b ++ c ++ d ++ (e ++ f ++ g ++ h : BitVec 32) : BitVec 64) =
      (a ++ b ++ c ++ d ++ e ++ f ++ g ++ h : BitVec 64) := by
    simp only [BitVec.append_assoc, BitVec.cast_eq]
  rw [h1, toNat_append8, toNat_append8, toNat_append8, toNat_append8, toNat_append8, toNat_append8, toNat_append8]
  have := a.isLt; have := b.isLt; have := c.isLt; have := d.isLt
  have := e.isLt; have := f.isLt; have := g.isLt; have := h.isLt
  simp only [natOfBytes, List.length_cons, List.length_nil, BitVec.toNat_ofNat]
  omega

/-! Cycles. -/

theorem cycleSize_pos (ea : Word) (n : Nat) : 0 < cycleSize ea n := by
  unfold cycleSize; split_ifs <;> omega

theorem cycleSize_le {n : Nat} (ea : Word) (h : 0 < n) : cycleSize ea n ≤ n := by
  unfold cycleSize; split_ifs <;> omega

theorem cycleSize_le_four (ea : Word) (n : Nat) : cycleSize ea n ≤ 4 := by
  unfold cycleSize; split_ifs <;> omega

/-- The cycles of a read in ascending order deliver the bytes of the operand. -/
theorem splitCycles_bytes (s : State) : ∀ (fuel : Nat) (ea : Word) (n : Nat), n ≤ fuel →
    (splitCycles fuel ea n).flatMap (fun c => s.bytesAt c.addr c.size) = s.bytesAt ea n
  | 0, ea, n, h => by
    obtain rfl : n = 0 := by omega
    rfl
  | fuel + 1, ea, n, h => by
    unfold splitCycles
    by_cases hn : n = 0
    · subst hn; rfl
    · have h1 := cycleSize_pos ea n
      have h2 := cycleSize_le ea (Nat.pos_of_ne_zero hn)
      simp only [hn, if_false, List.flatMap_cons]
      rw [splitCycles_bytes s fuel _ _ (by omega), ← bytesAt_append]
      congr 1
      omega

/-- A read of cycles without a bus error and without writes of other bus masters: the bytes of the cycles, and only the record of
cycles changes. -/
theorem readCycles_done (x : Bool) : ∀ (cs : List Cycle) (s : State), s.intrusions = [] →
    (∀ c ∈ cs, s.busError .load c.addr c.size = false) →
    ∃ l, readCycles x cs s = .done (cs.flatMap fun c => s.bytesAt c.addr c.size) { s with lbus := l }
  | [], s, _, _ => ⟨s.lbus, rfl⟩
  | c :: cs, s, hi, h => by
    have hc : s.busError .load c.addr c.size = false := h c (by simp)
    obtain ⟨l, hl⟩ := readCycles_done x cs (s.record c false x (s.bytesAt c.addr c.size)) (by simpa using hi)
      (fun d hd => h d (List.mem_cons_of_mem c hd))
    refine ⟨l, ?_⟩
    have hb : ∀ d : Cycle, (s.record c false x (s.bytesAt c.addr c.size)).bytesAt d.addr d.size = s.bytesAt d.addr d.size :=
      fun d => bytesAt_congr (by simp) _ _
    simp only [hb] at hl
    simp only [readCycles, intrude_nil hi, hc, Bool.false_eq_true, if_false, hl, List.flatMap_cons]
    rfl

/-- The first cycle of a read that ends in a bus error ends the read. -/
theorem readCycles_error (x : Bool) (c : Cycle) (cs : List Cycle) (s : State) (hi : s.intrusions = [])
    (h : s.busError .load c.addr c.size = true) : readCycles x (c :: cs) s = .busError c.ea s := by
  simp [readCycles, hi, h]

/-- A write of cycles in ascending order without a bus error and without writes of other bus masters: the bytes are in memory, no other byte changes, memory keeps its
form, and nothing else changes but the older versions for fetches and the record of cycles. -/
theorem writeCycles_split (x : Bool) : ∀ (fuel : Nat) (ea : Word) (bs : List Byte) (s : State), s.intrusions = [] →
    Memory.wf s.mem = true → bs.length ≤ fuel → bs.length < 2 ^ 32 →
    (∀ c ∈ splitCycles fuel ea bs.length, s.busError .store c.addr c.size = false) →
    ∃ t, writeCycles x (splitCycles fuel ea bs.length) bs s = .done () t ∧ Memory.wf t.mem = true ∧
      (∀ c : Word, t.byteAt c = (bs[(c - ea).toNat]?).getD (s.byteAt c)) ∧
      t = { s with mem := t.mem, stale := t.stale, lbus := t.lbus }
  | 0, ea, bs, s, _, hw, hf, _, _ => by
    obtain rfl : bs = [] := List.eq_nil_of_length_eq_zero (by omega)
    exact ⟨s, rfl, hw, fun c => by simp, rfl⟩
  | fuel + 1, ea, bs, s, hi, hw, hf, hl, he => by
    unfold splitCycles at he ⊢
    by_cases hn : bs.length = 0
    · obtain rfl := List.eq_nil_of_length_eq_zero hn
      exact ⟨s, rfl, hw, fun c => by simp, rfl⟩
    · simp only [hn, if_false] at he ⊢
      have h1 := cycleSize_pos ea bs.length
      have h2 := cycleSize_le ea (Nat.pos_of_ne_zero hn)
      have h4 := cycleSize_le_four ea bs.length
      generalize hk : cycleSize ea bs.length = k at *
      have hc := he { ea := ea, addr := ea, size := k } (by simp)
      set u := (s.writeBytes ea (bs.take k)).record { ea := ea, addr := ea, size := k } true x (bs.take k) with hu
      have hlen : (bs.drop k).length = bs.length - k := by simp
      obtain ⟨t, ht, hwt, hbt, hst⟩ := writeCycles_split x fuel (ea + BitVec.ofNat 32 k) (bs.drop k) u
        (by rw [hu, record_intrusions, writeBytes_intrusions, hi])
        (by rw [hu, record_mem]; exact writeBytes_wf s ea _ hw) (by omega) (by omega)
        (by
          rw [hlen]
          intro c hcm
          have := he c (List.mem_cons_of_mem _ hcm)
          have hp : u.platform = s.platform := by rw [hu, record_platform, writeBytes_platform]
          simpa [State.busError, hp] using this)
      refine ⟨t, ?_, hwt, ?_, ?_⟩
      · rw [hlen] at ht
        simp only [writeCycles, intrude_nil hi, hc, Bool.false_eq_true, if_false]
        exact ht
      · intro c
        rw [hbt c]
        have hlt : (bs.take k).length = k := by simp; omega
        have hub : u.byteAt c = ((bs.take k)[(c - ea).toNat]?).getD (s.byteAt c) := by
          rw [byteAt_congr (s := s.writeBytes ea (bs.take k)) (by rw [hu, record_mem])]
          exact byteAt_writeBytes s ea c _ hw (by omega)
        rw [hub, List.getElem?_drop, List.getElem?_take]
        by_cases hlt2 : (c - ea).toNat < k
        · have : bs.length ≤ k + (c - (ea + BitVec.ofNat 32 k)).toNat := by
            have e : (c - (ea + BitVec.ofNat 32 k)).toNat = (c - ea).toNat + 2 ^ 32 - k := by bv_omega
            omega
          rw [List.getElem?_eq_none this, if_pos hlt2]
          rfl
        · have : k + (c - (ea + BitVec.ofNat 32 k)).toNat = (c - ea).toNat := by bv_omega
          rw [this, if_neg hlt2]
          rfl
      · exact hst.trans (by simp [hu])

/-! Operands. -/

/-- The address on the bus of an aligned operand or in big-endian mode, and the bytes its cycles deliver. -/
theorem operandCycles_bytes (s : State) (ea : Word) (n : Nat) :
    (s.operandCycles ea n).flatMap (fun c => s.bytesAt c.addr c.size) =
      s.bytesAt (if n = 8 then ea else s.busAddress ea n) n := by
  unfold State.operandCycles State.busAddress
  by_cases h8 : n = 8
  · subst h8
    simp [splitCycles_bytes s 8 ea 8 (le_refl 8)]
  · cases hle : msrLE s.msr
    · simp [h8, splitCycles_bytes s n ea n (le_refl n)]
    · simp [h8]

/-- A read of an operand without a bus error. -/
theorem load_done (s : State) (ea : Word) (n : Nat) (x : Bool) (hi : s.intrusions = [])
    (h : ∀ c ∈ s.operandCycles ea n, s.busError .load c.addr c.size = false) :
    ∃ l, s.load ea n x =
      .done (BitVec.ofNat 64 (natOfBytes (s.bytesAt (if n = 8 then ea else s.busAddress ea n) n))) { s with lbus := l } := by
  obtain ⟨l, hl⟩ := readCycles_done x (s.operandCycles ea n) s hi h
  exact ⟨l, by rw [State.load, hl, operandCycles_bytes]⟩

/-- A read whose first cycle ends in a bus error. -/
theorem load_error {s : State} {ea : Word} {n : Nat} (x : Bool) (hi : s.intrusions = []) {c : Cycle} {cs : List Cycle}
    (hc : s.operandCycles ea n = c :: cs) (h : s.busError .load c.addr c.size = true) :
    s.load ea n x = .busError c.ea s := by
  rw [State.load, hc, readCycles_error x c cs s hi h]

/-- A write of an operand without a bus error. -/
theorem store_done (s : State) (ea : Word) (n : Nat) (v : Dword) (x : Bool) (hn : n < 2 ^ 32) (hi : s.intrusions = [])
    (hw : Memory.wf s.mem = true) (h : ∀ c ∈ s.operandCycles ea n, s.busError .store c.addr c.size = false) :
    ∃ t, s.store ea n v x = .done () t ∧ Memory.wf t.mem = true ∧
      (∀ c : Word, t.byteAt c =
        ((bytesOf n v)[(c - (if n = 8 then ea else s.busAddress ea n)).toNat]?).getD (s.byteAt c)) ∧
      t = { s with mem := t.mem, stale := t.stale, lbus := t.lbus } := by
  unfold State.store
  unfold State.operandCycles State.busAddress at *
  by_cases hle : (msrLE s.msr && n != 8) = true
  · obtain ⟨hl, h8⟩ : msrLE s.msr = true ∧ n ≠ 8 := by simpa using hle
    simp only [hle, if_true, List.mem_singleton, forall_eq] at h ⊢
    simp only [hl, if_true, h8, if_false]
    have ht : (bytesOf n v).take n = bytesOf n v := List.take_of_length_le (by simp)
    refine ⟨(s.writeBytes (leModify ea n) (bytesOf n v)).record { ea := ea, addr := leModify ea n, size := n } true x
      (bytesOf n v), ?_, ?_, ?_, ?_⟩
    · simp only [writeCycles, intrude_nil hi, h, Bool.false_eq_true, if_false, ht]
    · rw [record_mem]; exact writeBytes_wf s _ _ hw
    · intro c
      rw [byteAt_congr (s := s.writeBytes (leModify ea n) (bytesOf n v)) (by rw [record_mem])]
      exact byteAt_writeBytes s _ c _ hw (by simpa using hn)
    · unfold State.writeBytes State.record State.noteStale
      dsimp only
      split <;> rfl
  · simp only [hle] at h ⊢
    have hb : (if n = 8 then ea else if msrLE s.msr then leModify ea n else ea) = ea := by
      by_cases h8 : n = 8
      · simp [h8]
      · have : msrLE s.msr = false := by simpa [h8] using hle
        simp [this]
    rw [hb]
    have hlen : (bytesOf n v).length = n := bytesOf_length n v
    have := writeCycles_split x n ea (bytesOf n v) s hi hw (by omega) (by omega) (by rw [hlen]; simpa using h)
    rw [hlen] at this
    exact this

end Sys2Proof.Laws
end

