-- ==== Sys2Proof/Laws/Cache.lean ====
section
/-! SUPPORT. Sets and ways of the instruction cache after an update. -/

namespace Sys2Proof.Laws

open Sys2Proof Sys2Proof.Machine

/-- A set read after one is put. -/
theorem setAt_putSet (c : ICache) (k j : BitVec 7) (x : CacheSet) :
    (c.putSet k x).setAt j = if j = k then x else c.setAt j := by
  simp only [ICache.setAt, ICache.putSet, Vector.getElem_set]
  by_cases h : j = k
  · simp [h]
  · have : k.toNat ≠ j.toNat := fun e => h (BitVec.eq_of_toNat_eq e.symm)
    simp [h, this]

/-- A way read after one is put. -/
theorem way_putWay (x : CacheSet) (w v : Bool) (l : CacheLine) : (x.putWay w l).way v = if v = w then l else x.way v := by
  cases w <;> cases v <;> rfl

/-- The way found holds the line. -/
theorem hits_of_hitWay {x : CacheSet} {a : Word} {w : Bool} (h : x.hitWay a = some w) : (x.way w).hits a = true := by
  unfold CacheSet.hitWay at h
  split at h
  · cases h; assumption
  · split at h
    · cases h; assumption
    · cases h

/-- No way holds the line when none is found. -/
theorem not_hits_of_hitWay_none {x : CacheSet} {a : Word} (h : x.hitWay a = none) (w : Bool) : (x.way w).hits a = false := by
  unfold CacheSet.hitWay at h
  split at h
  · cases h
  · split at h
    · cases h
    · cases w <;> simp_all [CacheSet.way]

/-- A way to replace is not locked, or not valid. -/
theorem victim_unlocked {x : CacheSet} {w : Bool} (h : x.victim = some w) :
    (x.way w).lock = false ∨ (x.way w).valid = false := by
  unfold CacheSet.victim at h
  split_ifs at h <;> cases h <;> simp_all [CacheSet.way]

/-! Fetching. -/

/-- A fetch changes the cache alone. -/
theorem fetchThrough_frame (s : State) (a : Word) :
    (s.fetchThrough a).state = { s with icache := (s.fetchThrough a).state.icache } := by
  unfold State.fetchThrough State.fetchMiss State.fillWay
  dsimp only
  repeat' split
  all_goals rfl

/-- Fetches down predicted paths change the cache and the count of free values alone. -/
theorem predictedFetches_frame : ∀ (n : Nat) (s : State),
    State.predictedFetches n s =
      { s with icache := (State.predictedFetches n s).icache, freeCount := (State.predictedFetches n s).freeCount }
  | 0, _ => rfl
  | n + 1, s => by
    have h1 := fetchThrough_frame s.draw.2 (s.draw.1.setWidth 32 &&& 0xFFFFFFFC#32)
    have h2 := predictedFetches_frame n (s.draw.2.fetchThrough (s.draw.1.setWidth 32 &&& 0xFFFFFFFC#32)).state
    simp only [State.predictedFetches]
    generalize State.predictedFetches n _ = u at h2 ⊢
    generalize (s.draw.2.fetchThrough (s.draw.1.setWidth 32 &&& 0xFFFFFFFC#32)).state = v at h1 h2
    rw [h1] at h2
    exact h2

theorem predictedPath_frame (s : State) :
    s.predictedPath = { s with icache := s.predictedPath.icache, freeCount := s.predictedPath.freeCount } := by
  unfold State.predictedPath
  split
  · have h := predictedFetches_frame (s.draw.1.toNat % 5) s.draw.2
    dsimp only
    generalize State.predictedFetches _ _ = u at h ⊢
    exact h
  · rfl

/-- With the cache disabled, no older version left and no bus error, a fetch delivers the word of memory and changes nothing. -/
theorem fetchAt_memory {s : State} {a : Word} (hc : s.cacheOn = false) (hs : s.stale = [])
    (hb : s.busError .fetch a 4 = false) : s.fetchAt a = .word (s.wordAt a) s := by
  simp [State.fetchAt, State.fetchThrough, State.oldVersions, State.predictedPath, hc, hs, hb]

/-- A store cycle that RESET cuts short changes memory, the older versions of words and the count of free values alone. -/
theorem scribble_frame (s : State) (c : BusCycle) :
    s.scribble c = { s with
      mem := (s.scribble c).mem, stale := (s.scribble c).stale, freeCount := (s.scribble c).freeCount } := by
  unfold State.scribble State.writeBytes State.noteStale
  dsimp only
  repeat' split
  all_goals rfl

/-- What an instruction cut short by RESET leaves: the cache as its fetch left it, and no register written. -/
theorem abandon_frame (s t : State) :
    s.abandon t = { s with
      icache := s.begun.icache, intrusions := t.intrusions, resetAsserted := true, cutShort := false
      mem := (s.abandon t).mem, stale := (s.abandon t).stale, freeCount := (s.abandon t).freeCount } := by
  have h : ∀ (l : List BusCycle) (u : State), l.foldl State.scribble u =
      { u with
        mem := (l.foldl State.scribble u).mem, stale := (l.foldl State.scribble u).stale
        freeCount := (l.foldl State.scribble u).freeCount } := by
    intro l
    induction l with
    | nil => exact fun _ => rfl
    | cons c l ih =>
      intro u
      have hu := scribble_frame u c
      have hl := ih (u.scribble c)
      simp only [List.foldl_cons]
      generalize l.foldl State.scribble _ = v at hl ⊢
      generalize u.scribble c = w at hu hl
      rw [hu] at hl
      exact hl
  exact h t.lbus _

end Sys2Proof.Laws
end

