-- ==== Sys2Proof/Laws/Ops.lean ====
section
/-! SUPPORT. What the shared operations of exceptions and privilege can do, said once each. -/

namespace Sys2Proof.Laws

open Sys2Proof Sys2Proof.Machine

/-! Taking an exception. -/

/-- Where an entry goes on: only CIA, debug mode and FREEZE change. -/
theorem enterHandler_eq (s : State) (causeBit : Nat) (offset : Word) :
    s.enterHandler causeBit offset =
      { s with
        freeze := s.freeze || bit s.der causeBit
        inDebug := (s.enterHandler causeBit offset).inDebug
        pc := (s.enterHandler causeBit offset).pc } := by
  unfold State.enterHandler
  dsimp only
  split <;> rfl

theorem enterHandler_debug {s : State} {causeBit : Nat} (offset : Word) (h : s.debugEnabled = true)
    (hd : bit s.der causeBit = true) :
    (s.enterHandler causeBit offset).inDebug = true ∧ (s.enterHandler causeBit offset).pc = s.pc := by
  simp [State.enterHandler, h, hd]

theorem enterHandler_vector {s : State} {causeBit : Nat} (offset : Word)
    (h : ¬(s.debugEnabled = true ∧ bit s.der causeBit = true)) :
    (s.enterHandler causeBit offset).inDebug = s.inDebug ∧
      (s.enterHandler causeBit offset).pc = vectorBase s.msr + offset := by
  have h' : (s.debugEnabled && bit s.der causeBit) = false := by simpa using h
  simp [State.enterHandler, h']

/-- BAR at entry: only BAR and the count of free values change. -/
theorem entryBar_eq (s : State) (x : Exc) :
    s.entryBar x = { s with bar := (s.entryBar x).bar, freeCount := (s.entryBar x).freeCount } := by
  unfold State.entryBar
  split <;> rfl

/-- An entry outside debug mode changes SRR0, SRR1, MSR, ECR, the reservation, where it goes on, FREEZE, BAR, what fetches may
still see of older memory, and the records of the model; nothing else. -/
theorem takeVia_eq (s : State) (x : Exc) (causeBit : Nat) (srr0 : Word) (info : BitVec 16) (h : s.inDebug = false) :
    s.takeVia x causeBit srr0 info =
      { s with
        srr0 := srr0 &&& 0xFFFFFFFC#32
        srr1 := srr1Of info s.msr
        msr := x.entryMsr s.msr
        ecr := setBit s.ecr causeBit true
        reservation := none
        excTaken := some (x.classOf info)
        freeze := s.freeze || bit s.der causeBit
        inDebug := (s.takeVia x causeBit srr0 info).inDebug
        pc := (s.takeVia x causeBit srr0 info).pc
        bar := (s.takeVia x causeBit srr0 info).bar
        stale := (s.takeVia x causeBit srr0 info).stale
        freeCount := (s.takeVia x causeBit srr0 info).freeCount } := by
  unfold State.takeVia
  simp only [h, Bool.false_eq_true, if_false]
  rw [enterHandler_eq, entryBar_eq]
  rfl

/-- MSR[IP] survives an entry. -/
theorem vectorBase_entryMsr (x : Exc) (m : Word) : vectorBase (x.entryMsr m) = vectorBase m := by
  have : msrIP (x.entryMsr m) = msrIP m := by
    unfold Exc.entryMsr msrIP setBit bit bitMask
    dsimp only
    split <;> split <;> simp
  unfold vectorBase
  rw [this]

/-- An entry that debug mode does not intercept goes on at the vector. -/
theorem takeVia_vector {s : State} {causeBit : Nat} (x : Exc) (srr0 : Word) (info : BitVec 16) (h : s.inDebug = false)
    (hd : ¬(s.debugEnabled = true ∧ bit s.der causeBit = true)) :
    (s.takeVia x causeBit srr0 info).inDebug = false ∧
      (s.takeVia x causeBit srr0 info).pc = vectorBase s.msr + x.offset := by
  unfold State.takeVia
  simp only [h, Bool.false_eq_true, if_false, flushQueue_inDebug, flushQueue_pc]
  have hv := enterHandler_vector (s := State.entryBar { s with
    ecr := setBit s.ecr causeBit true, reservation := none, excTaken := some (x.classOf info)
    srr0 := srr0 &&& 0xFFFFFFFC#32, srr1 := srr1Of info s.msr, msr := x.entryMsr s.msr } x) (causeBit := causeBit) x.offset
    (by simpa using hd)
  simp only [h, entryBar_inDebug, entryBar_msr, vectorBase_entryMsr] at hv ⊢
  exact hv

/-- An entry that debug mode intercepts leaves CIA. -/
theorem takeVia_debug {s : State} {causeBit : Nat} (x : Exc) (srr0 : Word) (info : BitVec 16) (h : s.inDebug = false)
    (he : s.debugEnabled = true) (hd : bit s.der causeBit = true) :
    (s.takeVia x causeBit srr0 info).inDebug = true ∧ (s.takeVia x causeBit srr0 info).pc = s.pc := by
  unfold State.takeVia
  simp only [h, Bool.false_eq_true, if_false, flushQueue_inDebug, flushQueue_pc]
  have hv := enterHandler_debug (s := State.entryBar { s with
    ecr := setBit s.ecr causeBit true, reservation := none, excTaken := some (x.classOf info)
    srr0 := srr0 &&& 0xFFFFFFFC#32, srr1 := srr1Of info s.msr, msr := x.entryMsr s.msr } x) (causeBit := causeBit) x.offset
    (by simpa using he) (by simpa using hd)
  simp only [h, entryBar_pc] at hv ⊢
  exact hv

/-- In debug mode an exception is only reported. -/
theorem takeVia_inDebug {s : State} (x : Exc) (causeBit : Nat) (srr0 : Word) (info : BitVec 16) (h : s.inDebug = true) :
    s.takeVia x causeBit srr0 info =
      { s with
        ecr := setBit s.ecr causeBit true, reservation := none, excTaken := some (x.classOf info)
        port := { s.port with exc := true } } := by
  simp [State.takeVia, h]

/-- The bits of an instruction word that SRR1 saves. -/
theorem srr1Of_bits (info : BitVec 16) (msr : Word) :
    bits (srr1Of info msr) 0 16 = info ∧ bits (srr1Of info msr) 16 16 = bits msr 16 16 := by
  constructor <;> apply BitVec.eq_of_getLsbD_eq <;> intro k hk <;>
    simp only [bits, srr1Of, BitVec.getLsbD_extractLsb', BitVec.getLsbD_append] <;> simp [hk]

/-! Levels and facilities. -/

theorem supervisorOnly_supervisor {s : State} (k : State → Result) (h : msrPR s.msr = false) : supervisorOnly s k = k s := by
  simp [supervisorOnly, h]

theorem supervisorOnly_user {s : State} (k : State → Result) (h : msrPR s.msr = true) : supervisorOnly s k = privileged s := by
  simp [supervisorOnly, h]

theorem fpAvailable_on {s : State} (k : State → Result) (h : msrFP s.msr = true) : fpAvailable s k = k s := by
  simp [fpAvailable, h]

theorem fpAvailable_off {s : State} (k : State → Result) (h : msrFP s.msr = false) :
    fpAvailable s k = raise .fpUnavailable s := by
  simp [fpAvailable, h]

/-- An access to a special register runs, is privileged, or is not implemented. -/
theorem sprAccess_cases (n : BitVec 10) (implemented : Bool) (s : State) (k : State → Result) :
    sprAccess n implemented s k = k s ∨ sprAccess n implemented s k = privileged s ∨
      sprAccess n implemented s k = softwareEmulation s := by
  unfold sprAccess
  dsimp only
  split_ifs <;> simp

theorem sprAccess_allowed {n : BitVec 10} {implemented : Bool} {s : State} (k : State → Result) (hi : implemented = true)
    (hl : (msrPR s.msr && sprSupervisor n) = false) (he : (sprExternal n && s.platform.sprErrors.contains n) = false) :
    sprAccess n implemented s k = k s := by
  unfold sprAccess
  cases hx : sprExternal n <;> simp_all

theorem sprAccess_denied {n : BitVec 10} {implemented : Bool} {s : State} (k : State → Result)
    (hl : (msrPR s.msr && sprSupervisor n) = true) (hi : (sprExternal n || implemented) = true) :
    sprAccess n implemented s k = privileged s := by
  unfold sprAccess
  cases hx : sprExternal n <;> simp_all

theorem sprAccess_missing {n : BitVec 10} {implemented : Bool} {s : State} (k : State → Result) (hi : implemented = false)
    (hl : (msrPR s.msr && sprSupervisor n) = false) : sprAccess n implemented s k = softwareEmulation s := by
  unfold sprAccess
  simp [hi, hl]

/-! The test for the floating-point enabled program exception, and return from an exception. -/

theorem fpEnabledTest_off {s : State} (srr0 : Word) (info : BitVec 16) (h : ¬(msrFE s.msr = true ∧ fpscrFEX s.fpscr = true)) :
    s.fpEnabledTest srr0 info = s := by
  have h' : (msrFE s.msr && fpscrFEX s.fpscr) = false := by simpa using h
  simp [State.fpEnabledTest, h']

theorem fpEnabledTest_on {s : State} (srr0 : Word) (info : BitVec 16) (h : msrFE s.msr = true) (hf : fpscrFEX s.fpscr = true) :
    s.fpEnabledTest srr0 info = s.take .program srr0 info := by
  simp [State.fpEnabledTest, h, hf]

/-- The alignment exception outside debug mode: an entry from a state in which only DAR, DSISR and the count of free values are
new. -/
theorem alignmentOf_eq {s : State} (i : Instr) (loads : Option (Reg → Bool)) (ea : Word) (h : s.inDebug = false) :
    ∃ w n, alignmentOf i loads ea s =
      .next ({ s with dar := ea, dsisr := w, freeCount := n }.take .alignment s.pc 0) := by
  refine ⟨dsisrOf (encode i) (dsisrLow (encode i) loads s.draw.1), s.draw.2.freeCount, ?_⟩
  rw [alignmentOf, if_neg (by simp [h])]
  rfl

/-- A machine check outside debug mode, with machine checks enabled. -/
theorem machineCheck_enabled {s : State} (info : BitVec 16) (update : State → State) (h : s.inDebug = false)
    (hm : msrME s.msr = true) : s.machineCheck info update = (update s).take .machineCheck s.pc info := by
  simp [State.machineCheck, h, hm]

/-- A machine check outside debug mode, with machine checks disabled and debug mode not enabled, stops the processor. -/
theorem machineCheck_checkstop {s : State} (info : BitVec 16) (update : State → State) (h : s.inDebug = false)
    (hm : msrME s.msr = false) (hd : s.debugEnabled = false) :
    s.machineCheck info update =
      { s with checkstop := true, ecr := setBit s.ecr chstpBit true, excTaken := some .before } := by
  simp [State.machineCheck, h, hm, hd]

end Sys2Proof.Laws
end

