-- ==== Sys2Proof/Laws/Float.lean ====
section
/-! SUPPORT. The FPSCR after an update, and the ends of the floating-point instructions. -/

namespace Sys2Proof.Laws

open Sys2Proof Sys2Proof.Machine

/-- A word meets a mask exactly when they share a bit. -/
theorem and_mask_ne_zero (f m : Word) : ((f &&& m) != 0) = true ↔ ∃ k, k < 32 ∧ bit f k = true ∧ bit m k = true := by
  constructor
  · intro h
    by_contra hn
    have : f &&& m = 0 := by
      apply eq_of_bit
      intro k hk
      cases hf : bit f k <;> cases hm : bit m k <;> simp_all [bit]
    simp [this] at h
  · rintro ⟨k, _, hf, hm⟩
    have : f &&& m ≠ 0 := by
      intro h
      have h1 : bit (f &&& m) k = true := by simp only [bit, BitVec.getLsbD_and] at *; simp [hf, hm]
      rw [h] at h1
      simp [bit] at h1
    simpa using this

/-- VX is the function of the other bits that the summary computes. -/
theorem invalid_of_mask (f : Word) : ((f &&& fpVXMask) != 0) = invalidSummary f := by
  rw [Bool.eq_iff_iff, and_mask_ne_zero]
  constructor
  · rintro ⟨k, hk, hf, hm⟩
    have : k ∈ [7, 8, 9, 10, 11, 12, 21, 22, 23] := by
      revert hm
      revert k
      intro k hk _ hm
      interval_cases k <;> first | decide | exact absurd hm (by decide)
    simp only [List.mem_cons, List.not_mem_nil, or_false] at this
    unfold invalidSummary
    rcases this with h | h | h | h | h | h | h | h | h <;> subst h <;> simp [hf]
  · intro h
    unfold invalidSummary at h
    simp only [Bool.or_eq_true] at h
    rcases h with (((((((h | h) | h) | h) | h) | h) | h) | h) | h
    all_goals first
      | exact ⟨7, by decide, h, by decide⟩
      | exact ⟨8, by decide, h, by decide⟩
      | exact ⟨9, by decide, h, by decide⟩
      | exact ⟨10, by decide, h, by decide⟩
      | exact ⟨11, by decide, h, by decide⟩
      | exact ⟨12, by decide, h, by decide⟩
      | exact ⟨21, by decide, h, by decide⟩
      | exact ⟨22, by decide, h, by decide⟩
      | exact ⟨23, by decide, h, by decide⟩

/-- The bits of the FPSCR after the recomputation of FEX and VX. -/
theorem bit_fpSummary (f : Word) (k : Nat) (hk : k < 32) :
    bit (fpSummary f) k =
      if k = 1 then enabledSummary f else if k = 2 then invalidSummary f else if k = 20 then false else bit f k := by
  unfold fpSummary
  dsimp only
  rw [bit_setBit _ _ _ _ (by decide) hk, bit_setBit _ _ _ _ (by decide) hk, invalid_of_mask]
  by_cases h2 : k = 2
  · subst h2; simp
  · by_cases h1 : k = 1
    · subst h1; simp [enabledSummary, fpVE, fpOE, fpUE, fpZE, fpXE]
    · simp only [h1, h2, if_false]
      have hm : bit fpscrMask k = !decide (k = 20) := by interval_cases k <;> rfl
      have : bit (f &&& fpscrMask) k = (bit f k && bit fpscrMask k) := by simp [bit]
      rw [this, hm]
      by_cases h20 : k = 20 <;> simp [h20]

/-- After the recomputation FEX and VX summarize the other bits. -/
theorem fpscrSummed_fpSummary (s : State) (f : Word) (h : s.fpscr = fpSummary f) : s.fpscrSummed := by
  unfold State.fpscrSummed
  rw [h]
  have hb : ∀ k, k < 32 → k ≠ 1 → k ≠ 2 → k ≠ 20 → bit (fpSummary f) k = bit f k := by
    intro k hk h1 h2 h3; rw [bit_fpSummary f k hk]; simp [h1, h2, h3]
  have hv : invalidSummary (fpSummary f) = invalidSummary f := by
    unfold invalidSummary
    rw [hb 7, hb 8, hb 9, hb 10, hb 11, hb 12, hb 21, hb 22, hb 23] <;> decide
  have he : enabledSummary (fpSummary f) = enabledSummary f := by
    unfold enabledSummary
    rw [hv, hb 24, hb 3, hb 25, hb 4, hb 26, hb 5, hb 27, hb 6, hb 28] <;> decide
  refine ⟨?_, ?_, ?_⟩
  · rw [bit_fpSummary f 2 (by decide), hv]; simp
  · rw [bit_fpSummary f 1 (by decide), he]; simp
  · rw [bit_fpSummary f 20 (by decide)]; simp

/-- The exception bits and the enables after signalling `set`: the bits of `set` are added, FX with a new one. -/
theorem bit_fpSignal (f set : Word) (k : Nat) (hk : k < 32) (h0 : k ≠ 0) (h1 : k ≠ 1) (h2 : k ≠ 2) (h20 : k ≠ 20) :
    bit (fpSignal f set) k = (bit f k || bit set k) := by
  unfold fpSignal
  dsimp only
  rw [bit_fpSummary _ k hk]
  simp only [h1, h2, h20, if_false]
  have h : bit (f ||| set) k = (bit f k || bit set k) := by simp [bit]
  split
  · exact h
  · rw [bit_setBit _ _ _ _ (by decide) hk, if_neg h0]; exact h

theorem fx_fpSignal (f set : Word) :
    bit (fpSignal f set) 0 = (bit f 0 || bit set 0 || decide (set &&& ~~~f ≠ 0)) := by
  unfold fpSignal
  dsimp only
  rw [bit_fpSummary _ 0 (by decide), if_neg (by decide), if_neg (by decide), if_neg (by decide)]
  by_cases hs : set &&& ~~~f = 0
  · rw [if_pos hs, bit_or]; simp [hs]
  · rw [if_neg hs, bit_setBit _ _ _ _ (by decide) (by decide), decide_eq_true hs]; simp

/-! The ends of the instructions. -/

/-- CR1 after the record of a floating-point instruction. -/
theorem recordedFp_recordFp (rc : Bool) (s t : State) (h : t.cr = s.cr) : recordedFp rc s (t.recordFp rc).advance := by
  unfold recordedFp
  cases rc
  · simpa [State.recordFp] using h
  · simp only [if_true, advance_cr, advance_fpscr, recordFp_fpscr]
    refine ⟨by simp [State.recordFp, State.setCr], fun g hg => ?_⟩
    simp only [State.recordFp, State.setCr, if_true, h, State.advance]
    exact crField_setCrField_ne _ _ _ _ hg

/-- Outside SIE mode an instruction ends at CIA + 4. -/
theorem finishFp_plain {s : State} (h : s.sie = false) : finishFp s = .next s.advance := by
  simp [finishFp, h]

/-- A delivered result changes frD, FPSCR, FPECR, CR and the count of free values alone. -/
theorem deliverResult_eq (s : State) (frD : Reg) (rc : Bool) (r : FpResult) :
    s.deliverResult frD rc r =
      { s with
        fpr := (s.deliverResult frD rc r).fpr
        fpscr := (s.deliverResult frD rc r).fpscr
        fpecr := (s.deliverResult frD rc r).fpecr
        cr := (s.deliverResult frD rc r).cr
        freeCount := (s.deliverResult frD rc r).freeCount } := by
  obtain ⟨v, p, e, a, b, y⟩ := r
  cases rc <;> cases v <;> cases hs : s.sie <;> cases ha : (a.isNone || b.isNone) <;>
    simp [State.deliverResult, State.recordFp, State.setCr, State.setCauses, State.sie, State.setF, State.draw, ha] <;>
    simp_all [State.sie]

/-- Outside SIE mode FPECR is unchanged. -/
theorem deliverResult_fpecr {s : State} (frD : Reg) (rc : Bool) (r : FpResult) (h : s.sie = false) :
    (s.deliverResult frD rc r).fpecr = s.fpecr := by
  have hs : bit s.fpecr 0 = false := h
  obtain ⟨v, p, e, a, b, y⟩ := r
  cases rc <;> cases v <;> cases ha : (a.isNone || b.isNone) <;>
    simp [State.deliverResult, State.recordFp, State.setCr, State.setCauses, State.sie, State.setF, State.draw, ha, hs]

/-- frD after a delivered value. -/
theorem deliverResult_f {s : State} (frD : Reg) (rc : Bool) {r : FpResult} {v : Dword} (h : r.value = some v) (n : Reg) :
    (s.deliverResult frD rc r).f n = if n = frD then v else s.f n := by
  have hf : (s.deliverResult frD rc r).fpr = (s.setF frD v).fpr := by
    obtain ⟨w, p, e, a, b, y⟩ := r
    simp only at h
    subst h
    cases ha : (a.isNone || b.isNone) <;> simp [State.deliverResult, ha, State.setF, State.draw]
  rw [f_congr (s := s.setF frD v) hf, f_setF]

end Sys2Proof.Laws
end

