-- ==== Sys2Proof/Laws/Integer.lean ====
section
/-! SUPPORT. What the shared ends of the integer instructions do. -/

namespace Sys2Proof.Laws

open Sys2Proof Sys2Proof.Machine

/-- The order of a word and zero as CR0 shows it. -/
theorem withSO_signedOrder (v x : Word) :
    withSO (signedOrder v 0) x =
      crBits (decide (v.toInt < 0)) (decide (0 < v.toInt)) (decide (v = 0)) (xerSO x) := by
  have hz : v = 0 ↔ v.toInt = 0 := by rw [← BitVec.toInt_inj]; rfl
  unfold withSO signedOrder crBits
  simp only [BitVec.slt, hz]
  rcases lt_trichotomy v.toInt 0 with h | h | h
  · have h1 : ¬(0 < v.toInt) := by omega
    have h2 : ¬(v.toInt = 0) := by omega
    simp [h, h1, h2]
  · simp [h]
  · have h1 : ¬(v.toInt < 0) := by omega
    have h2 : ¬(v.toInt = 0) := by omega
    simp [h, h1, h2]

/-- CR after the record of a result. -/
theorem recorded_recordIf (rc : Bool) (v : Word) (s t : State) (h : t.cr = s.cr) :
    recorded rc v s (t.recordIf rc v).advance := by
  unfold recorded
  cases rc
  · simpa [State.recordIf] using h
  · simp only [if_true, advance_cr, advance_xer, recordIf_xer]
    constructor
    · simpa [State.recordIf, State.setCR0, State.setCr] using withSO_signedOrder v t.xer
    · intro g hg
      simp only [State.recordIf, State.setCR0, State.setCr, if_true, h, State.advance]
      exact crField_setCrField_ne _ _ _ _ hg

/-- OV and SO after their update. -/
theorem overflowed_setOVIf (oe ov : Bool) (s t u : State) (hx : u.xer = (t.setOVIf oe ov).xer)
    (h1 : xerOV t.xer = xerOV s.xer) (h2 : xerSO t.xer = xerSO s.xer) : overflowed oe ov s u := by
  unfold overflowed
  cases oe <;> simp [hx, State.setOVIf, h1, h2]

/-- What `arith` does: everything an instruction of the family writes, and nothing else. -/
theorem arith_spec (rD : Reg) (v : Word) (ov oe rc : Bool) (s : State) :
    ∃ t, arith rD v ov oe rc s = .next t ∧ t.r rD = v ∧ xerCA t.xer = xerCA s.xer ∧ overflowed oe ov s t ∧
      recorded rc v s t ∧ sameXerRest s t ∧ sameGprsBut s t [rD] ∧ t.mem = s.mem ∧ onlyInteger s t ∧ t.pc = s.pc + 4 := by
  refine ⟨_, rfl, ?_, ?_, ?_, ?_, ?_, ?_, ?_, ?_, ?_⟩
  · rw [r_congr (s := s.setR rD v) (by simp)]; simp
  · cases oe <;> simp [State.setOVIf]
  · exact overflowed_setOVIf oe ov s (s.setR rD v) _ (by simp) (by simp) (by simp)
  · exact recorded_recordIf rc v s _ (by simp)
  · unfold sameXerRest
    cases oe
    · simp [State.setOVIf]
    · simpa [State.setOVIf] using xerRest_setOV (s.setR rD v) ov
  · intro n hn
    rw [r_congr (s := s.setR rD v) (by simp)]
    exact r_setR_ne s v (by simpa using hn)
  · simp
  · cases oe <;> cases rc <;> rfl
  · simp [State.advance]

/-- What `arithCarry` does. -/
theorem arithCarry_spec (rD : Reg) (x : Sum) (oe rc : Bool) (s : State) :
    ∃ t, arithCarry rD x oe rc s = .next t ∧ t.r rD = x.sum ∧ xerCA t.xer = x.ca ∧ overflowed oe x.ov s t ∧
      recorded rc x.sum s t ∧ sameXerRest s t ∧ sameGprsBut s t [rD] ∧ t.mem = s.mem ∧ onlyInteger s t ∧
      t.pc = s.pc + 4 := by
  refine ⟨_, rfl, ?_, ?_, ?_, ?_, ?_, ?_, ?_, ?_, ?_⟩
  · rw [r_congr (s := s.setR rD x.sum) (by simp)]; simp
  · cases oe <;> simp [State.setOVIf]
  · exact overflowed_setOVIf oe x.ov s ((s.setR rD x.sum).setCA x.ca) _ (by simp) (by simp) (by simp)
  · exact recorded_recordIf rc x.sum s _ (by simp)
  · unfold sameXerRest
    cases oe
    · simpa [State.setOVIf] using xerRest_setCA (s.setR rD x.sum) x.ca
    · have h1 := xerRest_setOV ((s.setR rD x.sum).setCA x.ca) x.ov
      have h2 := xerRest_setCA (s.setR rD x.sum) x.ca
      simpa [State.setOVIf] using h1.trans h2
  · intro n hn
    rw [r_congr (s := s.setR rD x.sum) (by simp)]
    exact r_setR_ne s x.sum (by simpa using hn)
  · simp
  · cases oe <;> cases rc <;> rfl
  · simp [State.advance]

/-- The sum, the carry out and the overflow of three addends, over integers. -/
theorem add32_spec (a b : Word) (c : Bool) :
    (add32 a b c).sum = a + b + BitVec.ofNat 32 c.toNat ∧
    (add32 a b c).ca = decide (2 ^ 32 ≤ a.toNat + b.toNat + c.toNat) ∧
    (add32 a b c).ov =
      decide (a.toInt + b.toInt + c.toNat < -2 ^ 31 ∨ 2 ^ 31 ≤ a.toInt + b.toInt + c.toNat) := by
  refine ⟨?_, rfl, ?_⟩
  · apply BitVec.eq_of_toNat_eq
    simp [add32, BitVec.toNat_add]
  · have hc : c.toNat ≤ 1 := by cases c <;> decide
    have ha := a.isLt
    have hb := b.isLt
    have e : (BitVec.ofNat 32 (a.toNat + b.toNat + c.toNat)).msb
        = decide (2 ^ 31 ≤ (a.toNat + b.toNat + c.toNat) % 2 ^ 32) := by
      rw [BitVec.msb_eq_decide, BitVec.toNat_ofNat]
    simp only [add32]
    rw [e, BitVec.msb_eq_decide, BitVec.msb_eq_decide, BitVec.toInt_eq_toNat_cond, BitVec.toInt_eq_toNat_cond,
      Bool.eq_iff_iff]
    simp only [Bool.and_eq_true, beq_iff_eq, bne_iff_ne, ne_eq, decide_eq_decide, decide_eq_true_eq]
    split <;> split <;> omega

/-- What a logical instruction does. -/
theorem logical_spec (rA : Reg) (v : Word) (rc : Bool) (s : State) :
    ∃ t, logical rA v rc s = .next t ∧ t.r rA = v ∧ recorded rc v s t ∧ sameGprsBut s t [rA] ∧ t.mem = s.mem ∧
      t = { s with gpr := t.gpr, cr := t.cr, pc := s.pc + 4 } := by
  refine ⟨_, rfl, ?_, ?_, ?_, ?_, ?_⟩
  · rw [r_congr (s := s.setR rA v) (by simp)]; simp
  · exact recorded_recordIf rc v s _ (by simp)
  · intro n hn
    rw [r_congr (s := s.setR rA v) (by simp)]
    exact r_setR_ne s v (by simpa using hn)
  · simp
  · cases rc <;> rfl

/-- What a rotate instruction does. -/
theorem rotated_spec (rA : Reg) (v : Word) (rc : Bool) (s : State) :
    ∃ t, rotated rA v rc s = .next t ∧ t.r rA = v ∧ recorded rc v s t ∧ sameGprsBut s t [rA] ∧ t.mem = s.mem ∧
      t = { s with gpr := t.gpr, cr := t.cr, pc := s.pc + 4 } :=
  logical_spec rA v rc s

/-- What an algebraic shift does. -/
theorem shiftedAlgebraic_spec (rA : Reg) (x : Word × Bool) (rc : Bool) (s : State) :
    ∃ t, shiftedAlgebraic rA x rc s = .next t ∧ t.r rA = x.1 ∧ xerCA t.xer = x.2 ∧
      t.xer &&& 0xDFFFFFFF#32 = s.xer &&& 0xDFFFFFFF#32 ∧ recorded rc x.1 s t ∧ sameGprsBut s t [rA] ∧
      t.mem = s.mem ∧ onlyInteger s t ∧ t.pc = s.pc + 4 := by
  refine ⟨_, rfl, ?_, ?_, ?_, ?_, ?_, ?_, ?_, ?_⟩
  · rw [r_congr (s := s.setR rA x.1) (by simp)]; simp
  · simp
  · simp only [advance_xer, recordIf_xer]
    exact setBit_and (by decide) (by decide)
  · exact recorded_recordIf rc x.1 s _ (by simp)
  · intro n hn
    rw [r_congr (s := s.setR rA x.1) (by simp)]
    exact r_setR_ne s x.1 (by simpa using hn)
  · simp
  · cases rc <;> rfl
  · simp [State.advance]

/-- What a compare does. -/
theorem compareWith_spec (crfD : BitVec 3) (order : BitVec 3) (s : State) :
    ∃ t, compareWith crfD order s = .next t ∧ crField t.cr crfD = withSO order s.xer ∧ sameCrBut s t crfD ∧
      t = { s with cr := t.cr, pc := s.pc + 4 } := by
  refine ⟨_, rfl, ?_, ?_, rfl⟩
  · simp [State.advance, State.setCr]
  · intro g hg
    exact crField_setCrField_ne _ _ _ _ hg

end Sys2Proof.Laws
end

