-- ==== Sys2Proof/Laws/PerInstr.lean ====
section
/-! SUPPORT. The encoder writes the opcode bits of every row of spec/opcode_table.json, one lemma per instruction. -/

namespace Sys2Proof.Laws

open Sys2Proof

/-! The opcode bits of the forms (30_encoding.md R191 to R196). -/

theorem formD_row (p : BitVec 6) (a b : BitVec 5) (imm : BitVec 16) :
    formD p a b imm &&& 0xFC000000#32 = (p ++ 0#26 : BitVec 32) := by
  apply BitVec.eq_of_getLsbD_eq
  intro k hk
  interval_cases k <;> simp only [formD, BitVec.getLsbD_and, BitVec.getLsbD_append] <;> simp

theorem formX_row (p : BitVec 6) (a b c : BitVec 5) (xo : BitVec 10) (r : Bool) :
    formX p a b c xo r &&& 0xFC0007FE#32 = (p ++ 0#15 ++ xo ++ 0#1 : BitVec 32) := by
  apply BitVec.eq_of_getLsbD_eq
  intro k hk
  interval_cases k <;> simp only [formX, BitVec.getLsbD_and, BitVec.getLsbD_append] <;> simp

theorem formX_row_rc (p : BitVec 6) (a b c : BitVec 5) (xo : BitVec 10) (r : Bool) :
    formX p a b c xo r &&& 0xFC0007FF#32 = (p ++ 0#15 ++ xo ++ BitVec.ofBool r : BitVec 32) := by
  apply BitVec.eq_of_getLsbD_eq
  intro k hk
  interval_cases k <;> simp only [formX, BitVec.getLsbD_and, BitVec.getLsbD_append] <;> simp

theorem formX_row_sc (p : BitVec 6) (a b c : BitVec 5) (xo : BitVec 10) (r : Bool) :
    formX p a b c xo r &&& 0xFC000002#32 = (p ++ 0#24 ++ xo.extractLsb' 0 1 ++ 0#1 : BitVec 32) := by
  apply BitVec.eq_of_getLsbD_eq
  intro k hk
  interval_cases k <;> simp only [formX, BitVec.getLsbD_and, BitVec.getLsbD_append] <;> simp

theorem formXO_row (p : BitVec 6) (a b c : BitVec 5) (oe : Bool) (xo : BitVec 9) (r : Bool) :
    formXO p a b c oe xo r &&& 0xFC0003FE#32 = (p ++ 0#16 ++ xo ++ 0#1 : BitVec 32) := by
  apply BitVec.eq_of_getLsbD_eq
  intro k hk
  interval_cases k <;> simp only [formXO, BitVec.getLsbD_and, BitVec.getLsbD_append] <;> simp

theorem formA_row (p : BitVec 6) (a b c d e : BitVec 5) (r : Bool) :
    formA p a b c d e r &&& 0xFC00003E#32 = (p ++ 0#20 ++ e ++ 0#1 : BitVec 32) := by
  apply BitVec.eq_of_getLsbD_eq
  intro k hk
  interval_cases k <;> simp only [formA, BitVec.getLsbD_and, BitVec.getLsbD_append] <;> simp

theorem formM_row (p : BitVec 6) (a b c d e : BitVec 5) (r : Bool) :
    formA p a b c d e r &&& 0xFC000000#32 = (p ++ 0#26 : BitVec 32) := by
  apply BitVec.eq_of_getLsbD_eq
  intro k hk
  interval_cases k <;> simp only [formA, BitVec.getLsbD_and, BitVec.getLsbD_append] <;> simp

theorem formI_row (p : BitVec 6) (li : BitVec 24) (aa lk : Bool) :
    formI p li aa lk &&& 0xFC000000#32 = (p ++ 0#26 : BitVec 32) := by
  apply BitVec.eq_of_getLsbD_eq
  intro k hk
  interval_cases k <;> simp only [formI, BitVec.getLsbD_and, BitVec.getLsbD_append] <;> simp

theorem formB_row (p : BitVec 6) (bo bi : BitVec 5) (bd : BitVec 14) (aa lk : Bool) :
    formB p bo bi bd aa lk &&& 0xFC000000#32 = (p ++ 0#26 : BitVec 32) := by
  apply BitVec.eq_of_getLsbD_eq
  intro k hk
  interval_cases k <;> simp only [formB, BitVec.getLsbD_and, BitVec.getLsbD_append] <;> simp

theorem formXFL_row (p : BitVec 6) (fm : BitVec 8) (b : BitVec 5) (xo : BitVec 10) (r : Bool) :
    formXFL p fm b xo r &&& 0xFC0007FE#32 = (p ++ 0#15 ++ xo ++ 0#1 : BitVec 32) := by
  apply BitVec.eq_of_getLsbD_eq
  intro k hk
  interval_cases k <;> simp only [formXFL, BitVec.getLsbD_and, BitVec.getLsbD_append] <;> simp

theorem formMtcrf_row (p : BitVec 6) (a : BitVec 5) (crm : BitVec 8) (xo : BitVec 10) :
    formMtcrf p a crm xo &&& 0xFC0007FE#32 = (p ++ 0#15 ++ xo ++ 0#1 : BitVec 32) := by
  apply BitVec.eq_of_getLsbD_eq
  intro k hk
  interval_cases k <;> simp only [formMtcrf, BitVec.getLsbD_and, BitVec.getLsbD_append] <;> simp

/-! The rows of the table. -/

/-- The bits an instruction's row fixes. -/
def rowMask : Instr → Word
  | .addi _ _ _ => 0xFC000000#32
  | .addis _ _ _ => 0xFC000000#32
  | .add _ _ _ _ _ => 0xFC0003FE#32
  | .addic _ _ _ => 0xFC000000#32
  | .addicRc _ _ _ => 0xFC000000#32
  | .addc _ _ _ _ _ => 0xFC0003FE#32
  | .adde _ _ _ _ _ => 0xFC0003FE#32
  | .addme _ _ _ _ => 0xFC0003FE#32
  | .addze _ _ _ _ => 0xFC0003FE#32
  | .subf _ _ _ _ _ => 0xFC0003FE#32
  | .subfic _ _ _ => 0xFC000000#32
  | .subfc _ _ _ _ _ => 0xFC0003FE#32
  | .subfe _ _ _ _ _ => 0xFC0003FE#32
  | .subfme _ _ _ _ => 0xFC0003FE#32
  | .subfze _ _ _ _ => 0xFC0003FE#32
  | .neg _ _ _ _ => 0xFC0003FE#32
  | .mulli _ _ _ => 0xFC000000#32
  | .mullw _ _ _ _ _ => 0xFC0003FE#32
  | .mulhw _ _ _ _ => 0xFC0003FE#32
  | .mulhwu _ _ _ _ => 0xFC0003FE#32
  | .divw _ _ _ _ _ => 0xFC0003FE#32
  | .divwu _ _ _ _ _ => 0xFC0003FE#32
  | .cmpi _ _ _ _ => 0xFC000000#32
  | .cmp _ _ _ _ => 0xFC0007FE#32
  | .cmpli _ _ _ _ => 0xFC000000#32
  | .cmpl _ _ _ _ => 0xFC0007FE#32
  | .andiRc _ _ _ => 0xFC000000#32
  | .andisRc _ _ _ => 0xFC000000#32
  | .ori _ _ _ => 0xFC000000#32
  | .oris _ _ _ => 0xFC000000#32
  | .xori _ _ _ => 0xFC000000#32
  | .xoris _ _ _ => 0xFC000000#32
  | .and _ _ _ _ => 0xFC0007FE#32
  | .or _ _ _ _ => 0xFC0007FE#32
  | .xor _ _ _ _ => 0xFC0007FE#32
  | .nand _ _ _ _ => 0xFC0007FE#32
  | .nor _ _ _ _ => 0xFC0007FE#32
  | .eqv _ _ _ _ => 0xFC0007FE#32
  | .andc _ _ _ _ => 0xFC0007FE#32
  | .orc _ _ _ _ => 0xFC0007FE#32
  | .extsb _ _ _ => 0xFC0007FE#32
  | .extsh _ _ _ => 0xFC0007FE#32
  | .cntlzw _ _ _ => 0xFC0007FE#32
  | .rlwinm _ _ _ _ _ _ => 0xFC000000#32
  | .rlwnm _ _ _ _ _ _ => 0xFC000000#32
  | .rlwimi _ _ _ _ _ _ => 0xFC000000#32
  | .slw _ _ _ _ => 0xFC0007FE#32
  | .srw _ _ _ _ => 0xFC0007FE#32
  | .sraw _ _ _ _ => 0xFC0007FE#32
  | .srawi _ _ _ _ => 0xFC0007FE#32
  | .fadd _ _ _ _ => 0xFC00003E#32
  | .fadds _ _ _ _ => 0xFC00003E#32
  | .fsub _ _ _ _ => 0xFC00003E#32
  | .fsubs _ _ _ _ => 0xFC00003E#32
  | .fmul _ _ _ _ => 0xFC00003E#32
  | .fmuls _ _ _ _ => 0xFC00003E#32
  | .fdiv _ _ _ _ => 0xFC00003E#32
  | .fdivs _ _ _ _ => 0xFC00003E#32
  | .fmadd _ _ _ _ _ => 0xFC00003E#32
  | .fmadds _ _ _ _ _ => 0xFC00003E#32
  | .fmsub _ _ _ _ _ => 0xFC00003E#32
  | .fmsubs _ _ _ _ _ => 0xFC00003E#32
  | .fnmadd _ _ _ _ _ => 0xFC00003E#32
  | .fnmadds _ _ _ _ _ => 0xFC00003E#32
  | .fnmsub _ _ _ _ _ => 0xFC00003E#32
  | .fnmsubs _ _ _ _ _ => 0xFC00003E#32
  | .frsp _ _ _ => 0xFC0007FE#32
  | .fctiw _ _ _ => 0xFC0007FE#32
  | .fctiwz _ _ _ => 0xFC0007FE#32
  | .fcmpu _ _ _ => 0xFC0007FE#32
  | .fcmpo _ _ _ => 0xFC0007FE#32
  | .mffs _ _ => 0xFC0007FE#32
  | .mcrfs _ _ => 0xFC0007FE#32
  | .mtfsfi _ _ _ => 0xFC0007FE#32
  | .mtfsf _ _ _ => 0xFC0007FE#32
  | .mtfsb0 _ _ => 0xFC0007FE#32
  | .mtfsb1 _ _ => 0xFC0007FE#32
  | .lbz _ _ _ => 0xFC000000#32
  | .lbzu _ _ _ => 0xFC000000#32
  | .lbzx _ _ _ => 0xFC0007FE#32
  | .lbzux _ _ _ => 0xFC0007FE#32
  | .lhz _ _ _ => 0xFC000000#32
  | .lhzu _ _ _ => 0xFC000000#32
  | .lhzx _ _ _ => 0xFC0007FE#32
  | .lhzux _ _ _ => 0xFC0007FE#32
  | .lha _ _ _ => 0xFC000000#32
  | .lhau _ _ _ => 0xFC000000#32
  | .lhax _ _ _ => 0xFC0007FE#32
  | .lhaux _ _ _ => 0xFC0007FE#32
  | .lwz _ _ _ => 0xFC000000#32
  | .lwzu _ _ _ => 0xFC000000#32
  | .lwzx _ _ _ => 0xFC0007FE#32
  | .lwzux _ _ _ => 0xFC0007FE#32
  | .stb _ _ _ => 0xFC000000#32
  | .stbu _ _ _ => 0xFC000000#32
  | .stbx _ _ _ => 0xFC0007FE#32
  | .stbux _ _ _ => 0xFC0007FE#32
  | .sth _ _ _ => 0xFC000000#32
  | .sthu _ _ _ => 0xFC000000#32
  | .sthx _ _ _ => 0xFC0007FE#32
  | .sthux _ _ _ => 0xFC0007FE#32
  | .stw _ _ _ => 0xFC000000#32
  | .stwu _ _ _ => 0xFC000000#32
  | .stwx _ _ _ => 0xFC0007FE#32
  | .stwux _ _ _ => 0xFC0007FE#32
  | .lhbrx _ _ _ => 0xFC0007FE#32
  | .lwbrx _ _ _ => 0xFC0007FE#32
  | .sthbrx _ _ _ => 0xFC0007FE#32
  | .stwbrx _ _ _ => 0xFC0007FE#32
  | .lmw _ _ _ => 0xFC000000#32
  | .stmw _ _ _ => 0xFC000000#32
  | .lswi _ _ _ => 0xFC0007FE#32
  | .lswx _ _ _ => 0xFC0007FE#32
  | .stswi _ _ _ => 0xFC0007FE#32
  | .stswx _ _ _ => 0xFC0007FE#32
  | .lfs _ _ _ => 0xFC000000#32
  | .lfsu _ _ _ => 0xFC000000#32
  | .lfsx _ _ _ => 0xFC0007FE#32
  | .lfsux _ _ _ => 0xFC0007FE#32
  | .lfd _ _ _ => 0xFC000000#32
  | .lfdu _ _ _ => 0xFC000000#32
  | .lfdx _ _ _ => 0xFC0007FE#32
  | .lfdux _ _ _ => 0xFC0007FE#32
  | .stfs _ _ _ => 0xFC000000#32
  | .stfsu _ _ _ => 0xFC000000#32
  | .stfsx _ _ _ => 0xFC0007FE#32
  | .stfsux _ _ _ => 0xFC0007FE#32
  | .stfd _ _ _ => 0xFC000000#32
  | .stfdu _ _ _ => 0xFC000000#32
  | .stfdx _ _ _ => 0xFC0007FE#32
  | .stfdux _ _ _ => 0xFC0007FE#32
  | .stfiwx _ _ _ => 0xFC0007FE#32
  | .fmr _ _ _ => 0xFC0007FE#32
  | .fneg _ _ _ => 0xFC0007FE#32
  | .fabs _ _ _ => 0xFC0007FE#32
  | .fnabs _ _ _ => 0xFC0007FE#32
  | .b _ _ _ => 0xFC000000#32
  | .bc _ _ _ _ _ => 0xFC000000#32
  | .bclr _ _ _ => 0xFC0007FE#32
  | .bcctr _ _ _ => 0xFC0007FE#32
  | .crand _ _ _ => 0xFC0007FE#32
  | .cror _ _ _ => 0xFC0007FE#32
  | .crxor _ _ _ => 0xFC0007FE#32
  | .crnand _ _ _ => 0xFC0007FE#32
  | .crnor _ _ _ => 0xFC0007FE#32
  | .creqv _ _ _ => 0xFC0007FE#32
  | .crandc _ _ _ => 0xFC0007FE#32
  | .crorc _ _ _ => 0xFC0007FE#32
  | .mcrf _ _ => 0xFC0007FE#32
  | .sc => 0xFC000002#32
  | .rfi => 0xFC0007FE#32
  | .tw _ _ _ => 0xFC0007FE#32
  | .twi _ _ _ => 0xFC000000#32
  | .mfcr _ => 0xFC0007FE#32
  | .mtcrf _ _ => 0xFC0007FE#32
  | .mcrxr _ => 0xFC0007FE#32
  | .mfmsr _ => 0xFC0007FE#32
  | .mtmsr _ => 0xFC0007FE#32
  | .mfspr _ _ => 0xFC0007FE#32
  | .mtspr _ _ => 0xFC0007FE#32
  | .mftb _ _ => 0xFC0007FE#32
  | .sync => 0xFC0007FE#32
  | .isync => 0xFC0007FE#32
  | .eieio => 0xFC0007FE#32
  | .lwarx _ _ _ => 0xFC0007FE#32
  | .stwcx _ _ _ => 0xFC0007FF#32
  | .icbi _ _ => 0xFC0007FE#32

/-- The value of these bits. -/
def rowBits : Instr → Word
  | .addi _ _ _ => 0x38000000#32
  | .addis _ _ _ => 0x3C000000#32
  | .add _ _ _ _ _ => 0x7C000214#32
  | .addic _ _ _ => 0x30000000#32
  | .addicRc _ _ _ => 0x34000000#32
  | .addc _ _ _ _ _ => 0x7C000014#32
  | .adde _ _ _ _ _ => 0x7C000114#32
  | .addme _ _ _ _ => 0x7C0001D4#32
  | .addze _ _ _ _ => 0x7C000194#32
  | .subf _ _ _ _ _ => 0x7C000050#32
  | .subfic _ _ _ => 0x20000000#32
  | .subfc _ _ _ _ _ => 0x7C000010#32
  | .subfe _ _ _ _ _ => 0x7C000110#32
  | .subfme _ _ _ _ => 0x7C0001D0#32
  | .subfze _ _ _ _ => 0x7C000190#32
  | .neg _ _ _ _ => 0x7C0000D0#32
  | .mulli _ _ _ => 0x1C000000#32
  | .mullw _ _ _ _ _ => 0x7C0001D6#32
  | .mulhw _ _ _ _ => 0x7C000096#32
  | .mulhwu _ _ _ _ => 0x7C000016#32
  | .divw _ _ _ _ _ => 0x7C0003D6#32
  | .divwu _ _ _ _ _ => 0x7C000396#32
  | .cmpi _ _ _ _ => 0x2C000000#32
  | .cmp _ _ _ _ => 0x7C000000#32
  | .cmpli _ _ _ _ => 0x28000000#32
  | .cmpl _ _ _ _ => 0x7C000040#32
  | .andiRc _ _ _ => 0x70000000#32
  | .andisRc _ _ _ => 0x74000000#32
  | .ori _ _ _ => 0x60000000#32
  | .oris _ _ _ => 0x64000000#32
  | .xori _ _ _ => 0x68000000#32
  | .xoris _ _ _ => 0x6C000000#32
  | .and _ _ _ _ => 0x7C000038#32
  | .or _ _ _ _ => 0x7C000378#32
  | .xor _ _ _ _ => 0x7C000278#32
  | .nand _ _ _ _ => 0x7C0003B8#32
  | .nor _ _ _ _ => 0x7C0000F8#32
  | .eqv _ _ _ _ => 0x7C000238#32
  | .andc _ _ _ _ => 0x7C000078#32
  | .orc _ _ _ _ => 0x7C000338#32
  | .extsb _ _ _ => 0x7C000774#32
  | .extsh _ _ _ => 0x7C000734#32
  | .cntlzw _ _ _ => 0x7C000034#32
  | .rlwinm _ _ _ _ _ _ => 0x54000000#32
  | .rlwnm _ _ _ _ _ _ => 0x5C000000#32
  | .rlwimi _ _ _ _ _ _ => 0x50000000#32
  | .slw _ _ _ _ => 0x7C000030#32
  | .srw _ _ _ _ => 0x7C000430#32
  | .sraw _ _ _ _ => 0x7C000630#32
  | .srawi _ _ _ _ => 0x7C000670#32
  | .fadd _ _ _ _ => 0xFC00002A#32
  | .fadds _ _ _ _ => 0xEC00002A#32
  | .fsub _ _ _ _ => 0xFC000028#32
  | .fsubs _ _ _ _ => 0xEC000028#32
  | .fmul _ _ _ _ => 0xFC000032#32
  | .fmuls _ _ _ _ => 0xEC000032#32
  | .fdiv _ _ _ _ => 0xFC000024#32
  | .fdivs _ _ _ _ => 0xEC000024#32
  | .fmadd _ _ _ _ _ => 0xFC00003A#32
  | .fmadds _ _ _ _ _ => 0xEC00003A#32
  | .fmsub _ _ _ _ _ => 0xFC000038#32
  | .fmsubs _ _ _ _ _ => 0xEC000038#32
  | .fnmadd _ _ _ _ _ => 0xFC00003E#32
  | .fnmadds _ _ _ _ _ => 0xEC00003E#32
  | .fnmsub _ _ _ _ _ => 0xFC00003C#32
  | .fnmsubs _ _ _ _ _ => 0xEC00003C#32
  | .frsp _ _ _ => 0xFC000018#32
  | .fctiw _ _ _ => 0xFC00001C#32
  | .fctiwz _ _ _ => 0xFC00001E#32
  | .fcmpu _ _ _ => 0xFC000000#32
  | .fcmpo _ _ _ => 0xFC000040#32
  | .mffs _ _ => 0xFC00048E#32
  | .mcrfs _ _ => 0xFC000080#32
  | .mtfsfi _ _ _ => 0xFC00010C#32
  | .mtfsf _ _ _ => 0xFC00058E#32
  | .mtfsb0 _ _ => 0xFC00008C#32
  | .mtfsb1 _ _ => 0xFC00004C#32
  | .lbz _ _ _ => 0x88000000#32
  | .lbzu _ _ _ => 0x8C000000#32
  | .lbzx _ _ _ => 0x7C0000AE#32
  | .lbzux _ _ _ => 0x7C0000EE#32
  | .lhz _ _ _ => 0xA0000000#32
  | .lhzu _ _ _ => 0xA4000000#32
  | .lhzx _ _ _ => 0x7C00022E#32
  | .lhzux _ _ _ => 0x7C00026E#32
  | .lha _ _ _ => 0xA8000000#32
  | .lhau _ _ _ => 0xAC000000#32
  | .lhax _ _ _ => 0x7C0002AE#32
  | .lhaux _ _ _ => 0x7C0002EE#32
  | .lwz _ _ _ => 0x80000000#32
  | .lwzu _ _ _ => 0x84000000#32
  | .lwzx _ _ _ => 0x7C00002E#32
  | .lwzux _ _ _ => 0x7C00006E#32
  | .stb _ _ _ => 0x98000000#32
  | .stbu _ _ _ => 0x9C000000#32
  | .stbx _ _ _ => 0x7C0001AE#32
  | .stbux _ _ _ => 0x7C0001EE#32
  | .sth _ _ _ => 0xB0000000#32
  | .sthu _ _ _ => 0xB4000000#32
  | .sthx _ _ _ => 0x7C00032E#32
  | .sthux _ _ _ => 0x7C00036E#32
  | .stw _ _ _ => 0x90000000#32
  | .stwu _ _ _ => 0x94000000#32
  | .stwx _ _ _ => 0x7C00012E#32
  | .stwux _ _ _ => 0x7C00016E#32
  | .lhbrx _ _ _ => 0x7C00062C#32
  | .lwbrx _ _ _ => 0x7C00042C#32
  | .sthbrx _ _ _ => 0x7C00072C#32
  | .stwbrx _ _ _ => 0x7C00052C#32
  | .lmw _ _ _ => 0xB8000000#32
  | .stmw _ _ _ => 0xBC000000#32
  | .lswi _ _ _ => 0x7C0004AA#32
  | .lswx _ _ _ => 0x7C00042A#32
  | .stswi _ _ _ => 0x7C0005AA#32
  | .stswx _ _ _ => 0x7C00052A#32
  | .lfs _ _ _ => 0xC0000000#32
  | .lfsu _ _ _ => 0xC4000000#32
  | .lfsx _ _ _ => 0x7C00042E#32
  | .lfsux _ _ _ => 0x7C00046E#32
  | .lfd _ _ _ => 0xC8000000#32
  | .lfdu _ _ _ => 0xCC000000#32
  | .lfdx _ _ _ => 0x7C0004AE#32
  | .lfdux _ _ _ => 0x7C0004EE#32
  | .stfs _ _ _ => 0xD0000000#32
  | .stfsu _ _ _ => 0xD4000000#32
  | .stfsx _ _ _ => 0x7C00052E#32
  | .stfsux _ _ _ => 0x7C00056E#32
  | .stfd _ _ _ => 0xD8000000#32
  | .stfdu _ _ _ => 0xDC000000#32
  | .stfdx _ _ _ => 0x7C0005AE#32
  | .stfdux _ _ _ => 0x7C0005EE#32
  | .stfiwx _ _ _ => 0x7C0007AE#32
  | .fmr _ _ _ => 0xFC000090#32
  | .fneg _ _ _ => 0xFC000050#32
  | .fabs _ _ _ => 0xFC000210#32
  | .fnabs _ _ _ => 0xFC000110#32
  | .b _ _ _ => 0x48000000#32
  | .bc _ _ _ _ _ => 0x40000000#32
  | .bclr _ _ _ => 0x4C000020#32
  | .bcctr _ _ _ => 0x4C000420#32
  | .crand _ _ _ => 0x4C000202#32
  | .cror _ _ _ => 0x4C000382#32
  | .crxor _ _ _ => 0x4C000182#32
  | .crnand _ _ _ => 0x4C0001C2#32
  | .crnor _ _ _ => 0x4C000042#32
  | .creqv _ _ _ => 0x4C000242#32
  | .crandc _ _ _ => 0x4C000102#32
  | .crorc _ _ _ => 0x4C000342#32
  | .mcrf _ _ => 0x4C000000#32
  | .sc => 0x44000002#32
  | .rfi => 0x4C000064#32
  | .tw _ _ _ => 0x7C000008#32
  | .twi _ _ _ => 0x0C000000#32
  | .mfcr _ => 0x7C000026#32
  | .mtcrf _ _ => 0x7C000120#32
  | .mcrxr _ => 0x7C000400#32
  | .mfmsr _ => 0x7C0000A6#32
  | .mtmsr _ => 0x7C000124#32
  | .mfspr _ _ => 0x7C0002A6#32
  | .mtspr _ _ => 0x7C0003A6#32
  | .mftb _ _ => 0x7C0002E6#32
  | .sync => 0x7C0004AC#32
  | .isync => 0x4C00012C#32
  | .eieio => 0x7C0006AC#32
  | .lwarx _ _ _ => 0x7C000028#32
  | .stwcx _ _ _ => 0x7C00012D#32
  | .icbi _ _ => 0x7C0007AC#32

/-- The word of an instruction has the opcode bits of its row. -/
def OpcodeRow.Statement (i : Instr) : Prop := encode i &&& rowMask i = rowBits i

theorem OpcodeRow.addi (rD rA : Reg) (simm : BitVec 16) : OpcodeRow.Statement (.addi rD rA simm) := formD_row _ _ _ _
theorem OpcodeRow.addis (rD rA : Reg) (simm : BitVec 16) : OpcodeRow.Statement (.addis rD rA simm) := formD_row _ _ _ _
theorem OpcodeRow.add (rD rA rB : Reg) (oe rc : Bool) : OpcodeRow.Statement (.add rD rA rB oe rc) := formXO_row _ _ _ _ _ _ _
theorem OpcodeRow.addic (rD rA : Reg) (simm : BitVec 16) : OpcodeRow.Statement (.addic rD rA simm) := formD_row _ _ _ _
theorem OpcodeRow.addicRc (rD rA : Reg) (simm : BitVec 16) : OpcodeRow.Statement (.addicRc rD rA simm) := formD_row _ _ _ _
theorem OpcodeRow.addc (rD rA rB : Reg) (oe rc : Bool) : OpcodeRow.Statement (.addc rD rA rB oe rc) :=
  formXO_row _ _ _ _ _ _ _
theorem OpcodeRow.adde (rD rA rB : Reg) (oe rc : Bool) : OpcodeRow.Statement (.adde rD rA rB oe rc) :=
  formXO_row _ _ _ _ _ _ _
theorem OpcodeRow.addme (rD rA : Reg) (oe rc : Bool) : OpcodeRow.Statement (.addme rD rA oe rc) := formXO_row _ _ _ _ _ _ _
theorem OpcodeRow.addze (rD rA : Reg) (oe rc : Bool) : OpcodeRow.Statement (.addze rD rA oe rc) := formXO_row _ _ _ _ _ _ _
theorem OpcodeRow.subf (rD rA rB : Reg) (oe rc : Bool) : OpcodeRow.Statement (.subf rD rA rB oe rc) :=
  formXO_row _ _ _ _ _ _ _
theorem OpcodeRow.subfic (rD rA : Reg) (simm : BitVec 16) : OpcodeRow.Statement (.subfic rD rA simm) := formD_row _ _ _ _
theorem OpcodeRow.subfc (rD rA rB : Reg) (oe rc : Bool) : OpcodeRow.Statement (.subfc rD rA rB oe rc) :=
  formXO_row _ _ _ _ _ _ _
theorem OpcodeRow.subfe (rD rA rB : Reg) (oe rc : Bool) : OpcodeRow.Statement (.subfe rD rA rB oe rc) :=
  formXO_row _ _ _ _ _ _ _
theorem OpcodeRow.subfme (rD rA : Reg) (oe rc : Bool) : OpcodeRow.Statement (.subfme rD rA oe rc) := formXO_row _ _ _ _ _ _ _
theorem OpcodeRow.subfze (rD rA : Reg) (oe rc : Bool) : OpcodeRow.Statement (.subfze rD rA oe rc) := formXO_row _ _ _ _ _ _ _
theorem OpcodeRow.neg (rD rA : Reg) (oe rc : Bool) : OpcodeRow.Statement (.neg rD rA oe rc) := formXO_row _ _ _ _ _ _ _
theorem OpcodeRow.mulli (rD rA : Reg) (simm : BitVec 16) : OpcodeRow.Statement (.mulli rD rA simm) := formD_row _ _ _ _
theorem OpcodeRow.mullw (rD rA rB : Reg) (oe rc : Bool) : OpcodeRow.Statement (.mullw rD rA rB oe rc) :=
  formXO_row _ _ _ _ _ _ _
theorem OpcodeRow.mulhw (rD rA rB : Reg) (rc : Bool) : OpcodeRow.Statement (.mulhw rD rA rB rc) := formXO_row _ _ _ _ _ _ _
theorem OpcodeRow.mulhwu (rD rA rB : Reg) (rc : Bool) : OpcodeRow.Statement (.mulhwu rD rA rB rc) := formXO_row _ _ _ _ _ _ _
theorem OpcodeRow.divw (rD rA rB : Reg) (oe rc : Bool) : OpcodeRow.Statement (.divw rD rA rB oe rc) :=
  formXO_row _ _ _ _ _ _ _
theorem OpcodeRow.divwu (rD rA rB : Reg) (oe rc : Bool) : OpcodeRow.Statement (.divwu rD rA rB oe rc) :=
  formXO_row _ _ _ _ _ _ _
theorem OpcodeRow.cmpi (crfD : BitVec 3) (l : Bool) (rA : Reg) (simm : BitVec 16) : OpcodeRow.Statement (.cmpi crfD l rA simm) :=
  formD_row _ _ _ _
theorem OpcodeRow.cmp (crfD : BitVec 3) (l : Bool) (rA rB : Reg) : OpcodeRow.Statement (.cmp crfD l rA rB) :=
  formX_row _ _ _ _ _ _
theorem OpcodeRow.cmpli (crfD : BitVec 3) (l : Bool) (rA : Reg) (uimm : BitVec 16) : OpcodeRow.Statement (.cmpli crfD l rA uimm) :=
  formD_row _ _ _ _
theorem OpcodeRow.cmpl (crfD : BitVec 3) (l : Bool) (rA rB : Reg) : OpcodeRow.Statement (.cmpl crfD l rA rB) :=
  formX_row _ _ _ _ _ _
theorem OpcodeRow.andiRc (rA rS : Reg) (uimm : BitVec 16) : OpcodeRow.Statement (.andiRc rA rS uimm) := formD_row _ _ _ _
theorem OpcodeRow.andisRc (rA rS : Reg) (uimm : BitVec 16) : OpcodeRow.Statement (.andisRc rA rS uimm) := formD_row _ _ _ _
theorem OpcodeRow.ori (rA rS : Reg) (uimm : BitVec 16) : OpcodeRow.Statement (.ori rA rS uimm) := formD_row _ _ _ _
theorem OpcodeRow.oris (rA rS : Reg) (uimm : BitVec 16) : OpcodeRow.Statement (.oris rA rS uimm) := formD_row _ _ _ _
theorem OpcodeRow.xori (rA rS : Reg) (uimm : BitVec 16) : OpcodeRow.Statement (.xori rA rS uimm) := formD_row _ _ _ _
theorem OpcodeRow.xoris (rA rS : Reg) (uimm : BitVec 16) : OpcodeRow.Statement (.xoris rA rS uimm) := formD_row _ _ _ _
theorem OpcodeRow.and (rA rS rB : Reg) (rc : Bool) : OpcodeRow.Statement (.and rA rS rB rc) := formX_row _ _ _ _ _ _
theorem OpcodeRow.or (rA rS rB : Reg) (rc : Bool) : OpcodeRow.Statement (.or rA rS rB rc) := formX_row _ _ _ _ _ _
theorem OpcodeRow.xor (rA rS rB : Reg) (rc : Bool) : OpcodeRow.Statement (.xor rA rS rB rc) := formX_row _ _ _ _ _ _
theorem OpcodeRow.nand (rA rS rB : Reg) (rc : Bool) : OpcodeRow.Statement (.nand rA rS rB rc) := formX_row _ _ _ _ _ _
theorem OpcodeRow.nor (rA rS rB : Reg) (rc : Bool) : OpcodeRow.Statement (.nor rA rS rB rc) := formX_row _ _ _ _ _ _
theorem OpcodeRow.eqv (rA rS rB : Reg) (rc : Bool) : OpcodeRow.Statement (.eqv rA rS rB rc) := formX_row _ _ _ _ _ _
theorem OpcodeRow.andc (rA rS rB : Reg) (rc : Bool) : OpcodeRow.Statement (.andc rA rS rB rc) := formX_row _ _ _ _ _ _
theorem OpcodeRow.orc (rA rS rB : Reg) (rc : Bool) : OpcodeRow.Statement (.orc rA rS rB rc) := formX_row _ _ _ _ _ _
theorem OpcodeRow.extsb (rA rS : Reg) (rc : Bool) : OpcodeRow.Statement (.extsb rA rS rc) := formX_row _ _ _ _ _ _
theorem OpcodeRow.extsh (rA rS : Reg) (rc : Bool) : OpcodeRow.Statement (.extsh rA rS rc) := formX_row _ _ _ _ _ _
theorem OpcodeRow.cntlzw (rA rS : Reg) (rc : Bool) : OpcodeRow.Statement (.cntlzw rA rS rc) := formX_row _ _ _ _ _ _
theorem OpcodeRow.rlwinm (rA rS : Reg) (sh mb me : BitVec 5) (rc : Bool) : OpcodeRow.Statement (.rlwinm rA rS sh mb me rc) :=
  formM_row _ _ _ _ _ _ _
theorem OpcodeRow.rlwnm (rA rS rB : Reg) (mb me : BitVec 5) (rc : Bool) : OpcodeRow.Statement (.rlwnm rA rS rB mb me rc) :=
  formM_row _ _ _ _ _ _ _
theorem OpcodeRow.rlwimi (rA rS : Reg) (sh mb me : BitVec 5) (rc : Bool) : OpcodeRow.Statement (.rlwimi rA rS sh mb me rc) :=
  formM_row _ _ _ _ _ _ _
theorem OpcodeRow.slw (rA rS rB : Reg) (rc : Bool) : OpcodeRow.Statement (.slw rA rS rB rc) := formX_row _ _ _ _ _ _
theorem OpcodeRow.srw (rA rS rB : Reg) (rc : Bool) : OpcodeRow.Statement (.srw rA rS rB rc) := formX_row _ _ _ _ _ _
theorem OpcodeRow.sraw (rA rS rB : Reg) (rc : Bool) : OpcodeRow.Statement (.sraw rA rS rB rc) := formX_row _ _ _ _ _ _
theorem OpcodeRow.srawi (rA rS : Reg) (sh : BitVec 5) (rc : Bool) : OpcodeRow.Statement (.srawi rA rS sh rc) :=
  formX_row _ _ _ _ _ _
theorem OpcodeRow.fadd (frD frA frB : Reg) (rc : Bool) : OpcodeRow.Statement (.fadd frD frA frB rc) :=
  formA_row _ _ _ _ _ _ _
theorem OpcodeRow.fadds (frD frA frB : Reg) (rc : Bool) : OpcodeRow.Statement (.fadds frD frA frB rc) :=
  formA_row _ _ _ _ _ _ _
theorem OpcodeRow.fsub (frD frA frB : Reg) (rc : Bool) : OpcodeRow.Statement (.fsub frD frA frB rc) :=
  formA_row _ _ _ _ _ _ _
theorem OpcodeRow.fsubs (frD frA frB : Reg) (rc : Bool) : OpcodeRow.Statement (.fsubs frD frA frB rc) :=
  formA_row _ _ _ _ _ _ _
theorem OpcodeRow.fmul (frD frA frC : Reg) (rc : Bool) : OpcodeRow.Statement (.fmul frD frA frC rc) :=
  formA_row _ _ _ _ _ _ _
theorem OpcodeRow.fmuls (frD frA frC : Reg) (rc : Bool) : OpcodeRow.Statement (.fmuls frD frA frC rc) :=
  formA_row _ _ _ _ _ _ _
theorem OpcodeRow.fdiv (frD frA frB : Reg) (rc : Bool) : OpcodeRow.Statement (.fdiv frD frA frB rc) :=
  formA_row _ _ _ _ _ _ _
theorem OpcodeRow.fdivs (frD frA frB : Reg) (rc : Bool) : OpcodeRow.Statement (.fdivs frD frA frB rc) :=
  formA_row _ _ _ _ _ _ _
theorem OpcodeRow.fmadd (frD frA frC frB : Reg) (rc : Bool) : OpcodeRow.Statement (.fmadd frD frA frC frB rc) :=
  formA_row _ _ _ _ _ _ _
theorem OpcodeRow.fmadds (frD frA frC frB : Reg) (rc : Bool) : OpcodeRow.Statement (.fmadds frD frA frC frB rc) :=
  formA_row _ _ _ _ _ _ _
theorem OpcodeRow.fmsub (frD frA frC frB : Reg) (rc : Bool) : OpcodeRow.Statement (.fmsub frD frA frC frB rc) :=
  formA_row _ _ _ _ _ _ _
theorem OpcodeRow.fmsubs (frD frA frC frB : Reg) (rc : Bool) : OpcodeRow.Statement (.fmsubs frD frA frC frB rc) :=
  formA_row _ _ _ _ _ _ _
theorem OpcodeRow.fnmadd (frD frA frC frB : Reg) (rc : Bool) : OpcodeRow.Statement (.fnmadd frD frA frC frB rc) :=
  formA_row _ _ _ _ _ _ _
theorem OpcodeRow.fnmadds (frD frA frC frB : Reg) (rc : Bool) : OpcodeRow.Statement (.fnmadds frD frA frC frB rc) :=
  formA_row _ _ _ _ _ _ _
theorem OpcodeRow.fnmsub (frD frA frC frB : Reg) (rc : Bool) : OpcodeRow.Statement (.fnmsub frD frA frC frB rc) :=
  formA_row _ _ _ _ _ _ _
theorem OpcodeRow.fnmsubs (frD frA frC frB : Reg) (rc : Bool) : OpcodeRow.Statement (.fnmsubs frD frA frC frB rc) :=
  formA_row _ _ _ _ _ _ _
theorem OpcodeRow.frsp (frD frB : Reg) (rc : Bool) : OpcodeRow.Statement (.frsp frD frB rc) := formX_row _ _ _ _ _ _
theorem OpcodeRow.fctiw (frD frB : Reg) (rc : Bool) : OpcodeRow.Statement (.fctiw frD frB rc) := formX_row _ _ _ _ _ _
theorem OpcodeRow.fctiwz (frD frB : Reg) (rc : Bool) : OpcodeRow.Statement (.fctiwz frD frB rc) := formX_row _ _ _ _ _ _
theorem OpcodeRow.fcmpu (crfD : BitVec 3) (frA frB : Reg) : OpcodeRow.Statement (.fcmpu crfD frA frB) :=
  formX_row _ _ _ _ _ _
theorem OpcodeRow.fcmpo (crfD : BitVec 3) (frA frB : Reg) : OpcodeRow.Statement (.fcmpo crfD frA frB) :=
  formX_row _ _ _ _ _ _
theorem OpcodeRow.mffs (frD : Reg) (rc : Bool) : OpcodeRow.Statement (.mffs frD rc) := formX_row _ _ _ _ _ _
theorem OpcodeRow.mcrfs (crfD crfS : BitVec 3) : OpcodeRow.Statement (.mcrfs crfD crfS) := formX_row _ _ _ _ _ _
theorem OpcodeRow.mtfsfi (crfD : BitVec 3) (imm : BitVec 4) (rc : Bool) : OpcodeRow.Statement (.mtfsfi crfD imm rc) :=
  formX_row _ _ _ _ _ _
theorem OpcodeRow.mtfsf (fm : BitVec 8) (frB : Reg) (rc : Bool) : OpcodeRow.Statement (.mtfsf fm frB rc) :=
  formXFL_row _ _ _ _ _
theorem OpcodeRow.mtfsb0 (crbD : BitVec 5) (rc : Bool) : OpcodeRow.Statement (.mtfsb0 crbD rc) := formX_row _ _ _ _ _ _
theorem OpcodeRow.mtfsb1 (crbD : BitVec 5) (rc : Bool) : OpcodeRow.Statement (.mtfsb1 crbD rc) := formX_row _ _ _ _ _ _
theorem OpcodeRow.lbz (rD : Reg) (d : BitVec 16) (rA : Reg) : OpcodeRow.Statement (.lbz rD d rA) := formD_row _ _ _ _
theorem OpcodeRow.lbzu (rD : Reg) (d : BitVec 16) (rA : Reg) : OpcodeRow.Statement (.lbzu rD d rA) := formD_row _ _ _ _
theorem OpcodeRow.lbzx (rD rA rB : Reg) : OpcodeRow.Statement (.lbzx rD rA rB) := formX_row _ _ _ _ _ _
theorem OpcodeRow.lbzux (rD rA rB : Reg) : OpcodeRow.Statement (.lbzux rD rA rB) := formX_row _ _ _ _ _ _
theorem OpcodeRow.lhz (rD : Reg) (d : BitVec 16) (rA : Reg) : OpcodeRow.Statement (.lhz rD d rA) := formD_row _ _ _ _
theorem OpcodeRow.lhzu (rD : Reg) (d : BitVec 16) (rA : Reg) : OpcodeRow.Statement (.lhzu rD d rA) := formD_row _ _ _ _
theorem OpcodeRow.lhzx (rD rA rB : Reg) : OpcodeRow.Statement (.lhzx rD rA rB) := formX_row _ _ _ _ _ _
theorem OpcodeRow.lhzux (rD rA rB : Reg) : OpcodeRow.Statement (.lhzux rD rA rB) := formX_row _ _ _ _ _ _
theorem OpcodeRow.lha (rD : Reg) (d : BitVec 16) (rA : Reg) : OpcodeRow.Statement (.lha rD d rA) := formD_row _ _ _ _
theorem OpcodeRow.lhau (rD : Reg) (d : BitVec 16) (rA : Reg) : OpcodeRow.Statement (.lhau rD d rA) := formD_row _ _ _ _
theorem OpcodeRow.lhax (rD rA rB : Reg) : OpcodeRow.Statement (.lhax rD rA rB) := formX_row _ _ _ _ _ _
theorem OpcodeRow.lhaux (rD rA rB : Reg) : OpcodeRow.Statement (.lhaux rD rA rB) := formX_row _ _ _ _ _ _
theorem OpcodeRow.lwz (rD : Reg) (d : BitVec 16) (rA : Reg) : OpcodeRow.Statement (.lwz rD d rA) := formD_row _ _ _ _
theorem OpcodeRow.lwzu (rD : Reg) (d : BitVec 16) (rA : Reg) : OpcodeRow.Statement (.lwzu rD d rA) := formD_row _ _ _ _
theorem OpcodeRow.lwzx (rD rA rB : Reg) : OpcodeRow.Statement (.lwzx rD rA rB) := formX_row _ _ _ _ _ _
theorem OpcodeRow.lwzux (rD rA rB : Reg) : OpcodeRow.Statement (.lwzux rD rA rB) := formX_row _ _ _ _ _ _
theorem OpcodeRow.stb (rS : Reg) (d : BitVec 16) (rA : Reg) : OpcodeRow.Statement (.stb rS d rA) := formD_row _ _ _ _
theorem OpcodeRow.stbu (rS : Reg) (d : BitVec 16) (rA : Reg) : OpcodeRow.Statement (.stbu rS d rA) := formD_row _ _ _ _
theorem OpcodeRow.stbx (rS rA rB : Reg) : OpcodeRow.Statement (.stbx rS rA rB) := formX_row _ _ _ _ _ _
theorem OpcodeRow.stbux (rS rA rB : Reg) : OpcodeRow.Statement (.stbux rS rA rB) := formX_row _ _ _ _ _ _
theorem OpcodeRow.sth (rS : Reg) (d : BitVec 16) (rA : Reg) : OpcodeRow.Statement (.sth rS d rA) := formD_row _ _ _ _
theorem OpcodeRow.sthu (rS : Reg) (d : BitVec 16) (rA : Reg) : OpcodeRow.Statement (.sthu rS d rA) := formD_row _ _ _ _
theorem OpcodeRow.sthx (rS rA rB : Reg) : OpcodeRow.Statement (.sthx rS rA rB) := formX_row _ _ _ _ _ _
theorem OpcodeRow.sthux (rS rA rB : Reg) : OpcodeRow.Statement (.sthux rS rA rB) := formX_row _ _ _ _ _ _
theorem OpcodeRow.stw (rS : Reg) (d : BitVec 16) (rA : Reg) : OpcodeRow.Statement (.stw rS d rA) := formD_row _ _ _ _
theorem OpcodeRow.stwu (rS : Reg) (d : BitVec 16) (rA : Reg) : OpcodeRow.Statement (.stwu rS d rA) := formD_row _ _ _ _
theorem OpcodeRow.stwx (rS rA rB : Reg) : OpcodeRow.Statement (.stwx rS rA rB) := formX_row _ _ _ _ _ _
theorem OpcodeRow.stwux (rS rA rB : Reg) : OpcodeRow.Statement (.stwux rS rA rB) := formX_row _ _ _ _ _ _
theorem OpcodeRow.lhbrx (rD rA rB : Reg) : OpcodeRow.Statement (.lhbrx rD rA rB) := formX_row _ _ _ _ _ _
theorem OpcodeRow.lwbrx (rD rA rB : Reg) : OpcodeRow.Statement (.lwbrx rD rA rB) := formX_row _ _ _ _ _ _
theorem OpcodeRow.sthbrx (rS rA rB : Reg) : OpcodeRow.Statement (.sthbrx rS rA rB) := formX_row _ _ _ _ _ _
theorem OpcodeRow.stwbrx (rS rA rB : Reg) : OpcodeRow.Statement (.stwbrx rS rA rB) := formX_row _ _ _ _ _ _
theorem OpcodeRow.lmw (rD : Reg) (d : BitVec 16) (rA : Reg) : OpcodeRow.Statement (.lmw rD d rA) := formD_row _ _ _ _
theorem OpcodeRow.stmw (rS : Reg) (d : BitVec 16) (rA : Reg) : OpcodeRow.Statement (.stmw rS d rA) := formD_row _ _ _ _
theorem OpcodeRow.lswi (rD rA : Reg) (nb : BitVec 5) : OpcodeRow.Statement (.lswi rD rA nb) := formX_row _ _ _ _ _ _
theorem OpcodeRow.lswx (rD rA rB : Reg) : OpcodeRow.Statement (.lswx rD rA rB) := formX_row _ _ _ _ _ _
theorem OpcodeRow.stswi (rS rA : Reg) (nb : BitVec 5) : OpcodeRow.Statement (.stswi rS rA nb) := formX_row _ _ _ _ _ _
theorem OpcodeRow.stswx (rS rA rB : Reg) : OpcodeRow.Statement (.stswx rS rA rB) := formX_row _ _ _ _ _ _
theorem OpcodeRow.lfs (frD : Reg) (d : BitVec 16) (rA : Reg) : OpcodeRow.Statement (.lfs frD d rA) := formD_row _ _ _ _
theorem OpcodeRow.lfsu (frD : Reg) (d : BitVec 16) (rA : Reg) : OpcodeRow.Statement (.lfsu frD d rA) := formD_row _ _ _ _
theorem OpcodeRow.lfsx (frD rA rB : Reg) : OpcodeRow.Statement (.lfsx frD rA rB) := formX_row _ _ _ _ _ _
theorem OpcodeRow.lfsux (frD rA rB : Reg) : OpcodeRow.Statement (.lfsux frD rA rB) := formX_row _ _ _ _ _ _
theorem OpcodeRow.lfd (frD : Reg) (d : BitVec 16) (rA : Reg) : OpcodeRow.Statement (.lfd frD d rA) := formD_row _ _ _ _
theorem OpcodeRow.lfdu (frD : Reg) (d : BitVec 16) (rA : Reg) : OpcodeRow.Statement (.lfdu frD d rA) := formD_row _ _ _ _
theorem OpcodeRow.lfdx (frD rA rB : Reg) : OpcodeRow.Statement (.lfdx frD rA rB) := formX_row _ _ _ _ _ _
theorem OpcodeRow.lfdux (frD rA rB : Reg) : OpcodeRow.Statement (.lfdux frD rA rB) := formX_row _ _ _ _ _ _
theorem OpcodeRow.stfs (frS : Reg) (d : BitVec 16) (rA : Reg) : OpcodeRow.Statement (.stfs frS d rA) := formD_row _ _ _ _
theorem OpcodeRow.stfsu (frS : Reg) (d : BitVec 16) (rA : Reg) : OpcodeRow.Statement (.stfsu frS d rA) := formD_row _ _ _ _
theorem OpcodeRow.stfsx (frS rA rB : Reg) : OpcodeRow.Statement (.stfsx frS rA rB) := formX_row _ _ _ _ _ _
theorem OpcodeRow.stfsux (frS rA rB : Reg) : OpcodeRow.Statement (.stfsux frS rA rB) := formX_row _ _ _ _ _ _
theorem OpcodeRow.stfd (frS : Reg) (d : BitVec 16) (rA : Reg) : OpcodeRow.Statement (.stfd frS d rA) := formD_row _ _ _ _
theorem OpcodeRow.stfdu (frS : Reg) (d : BitVec 16) (rA : Reg) : OpcodeRow.Statement (.stfdu frS d rA) := formD_row _ _ _ _
theorem OpcodeRow.stfdx (frS rA rB : Reg) : OpcodeRow.Statement (.stfdx frS rA rB) := formX_row _ _ _ _ _ _
theorem OpcodeRow.stfdux (frS rA rB : Reg) : OpcodeRow.Statement (.stfdux frS rA rB) := formX_row _ _ _ _ _ _
theorem OpcodeRow.stfiwx (frS rA rB : Reg) : OpcodeRow.Statement (.stfiwx frS rA rB) := formX_row _ _ _ _ _ _
theorem OpcodeRow.fmr (frD frB : Reg) (rc : Bool) : OpcodeRow.Statement (.fmr frD frB rc) := formX_row _ _ _ _ _ _
theorem OpcodeRow.fneg (frD frB : Reg) (rc : Bool) : OpcodeRow.Statement (.fneg frD frB rc) := formX_row _ _ _ _ _ _
theorem OpcodeRow.fabs (frD frB : Reg) (rc : Bool) : OpcodeRow.Statement (.fabs frD frB rc) := formX_row _ _ _ _ _ _
theorem OpcodeRow.fnabs (frD frB : Reg) (rc : Bool) : OpcodeRow.Statement (.fnabs frD frB rc) := formX_row _ _ _ _ _ _
theorem OpcodeRow.b (li : BitVec 24) (aa lk : Bool) : OpcodeRow.Statement (.b li aa lk) := formI_row _ _ _ _
theorem OpcodeRow.bc (bo bi : BitVec 5) (bd : BitVec 14) (aa lk : Bool) : OpcodeRow.Statement (.bc bo bi bd aa lk) :=
  formB_row _ _ _ _ _ _
theorem OpcodeRow.bclr (bo bi : BitVec 5) (lk : Bool) : OpcodeRow.Statement (.bclr bo bi lk) := formX_row _ _ _ _ _ _
theorem OpcodeRow.bcctr (bo bi : BitVec 5) (lk : Bool) : OpcodeRow.Statement (.bcctr bo bi lk) := formX_row _ _ _ _ _ _
theorem OpcodeRow.crand (crbD crbA crbB : BitVec 5) : OpcodeRow.Statement (.crand crbD crbA crbB) := formX_row _ _ _ _ _ _
theorem OpcodeRow.cror (crbD crbA crbB : BitVec 5) : OpcodeRow.Statement (.cror crbD crbA crbB) := formX_row _ _ _ _ _ _
theorem OpcodeRow.crxor (crbD crbA crbB : BitVec 5) : OpcodeRow.Statement (.crxor crbD crbA crbB) := formX_row _ _ _ _ _ _
theorem OpcodeRow.crnand (crbD crbA crbB : BitVec 5) : OpcodeRow.Statement (.crnand crbD crbA crbB) := formX_row _ _ _ _ _ _
theorem OpcodeRow.crnor (crbD crbA crbB : BitVec 5) : OpcodeRow.Statement (.crnor crbD crbA crbB) := formX_row _ _ _ _ _ _
theorem OpcodeRow.creqv (crbD crbA crbB : BitVec 5) : OpcodeRow.Statement (.creqv crbD crbA crbB) := formX_row _ _ _ _ _ _
theorem OpcodeRow.crandc (crbD crbA crbB : BitVec 5) : OpcodeRow.Statement (.crandc crbD crbA crbB) := formX_row _ _ _ _ _ _
theorem OpcodeRow.crorc (crbD crbA crbB : BitVec 5) : OpcodeRow.Statement (.crorc crbD crbA crbB) := formX_row _ _ _ _ _ _
theorem OpcodeRow.mcrf (crfD crfS : BitVec 3) : OpcodeRow.Statement (.mcrf crfD crfS) := formX_row _ _ _ _ _ _
theorem OpcodeRow.sc : OpcodeRow.Statement .sc := formX_row_sc _ _ _ _ _ _
theorem OpcodeRow.rfi : OpcodeRow.Statement .rfi := formX_row _ _ _ _ _ _
theorem OpcodeRow.tw (trapOn : BitVec 5) (rA rB : Reg) : OpcodeRow.Statement (.tw trapOn rA rB) := formX_row _ _ _ _ _ _
theorem OpcodeRow.twi (trapOn : BitVec 5) (rA : Reg) (simm : BitVec 16) : OpcodeRow.Statement (.twi trapOn rA simm) :=
  formD_row _ _ _ _
theorem OpcodeRow.mfcr (rD : Reg) : OpcodeRow.Statement (.mfcr rD) := formX_row _ _ _ _ _ _
theorem OpcodeRow.mtcrf (crm : BitVec 8) (rS : Reg) : OpcodeRow.Statement (.mtcrf crm rS) := formMtcrf_row _ _ _ _
theorem OpcodeRow.mcrxr (crfD : BitVec 3) : OpcodeRow.Statement (.mcrxr crfD) := formX_row _ _ _ _ _ _
theorem OpcodeRow.mfmsr (rD : Reg) : OpcodeRow.Statement (.mfmsr rD) := formX_row _ _ _ _ _ _
theorem OpcodeRow.mtmsr (rS : Reg) : OpcodeRow.Statement (.mtmsr rS) := formX_row _ _ _ _ _ _
theorem OpcodeRow.mfspr (rD : Reg) (spr : BitVec 10) : OpcodeRow.Statement (.mfspr rD spr) := formX_row _ _ _ _ _ _
theorem OpcodeRow.mtspr (spr : BitVec 10) (rS : Reg) : OpcodeRow.Statement (.mtspr spr rS) := formX_row _ _ _ _ _ _
theorem OpcodeRow.mftb (rD : Reg) (tbr : BitVec 10) : OpcodeRow.Statement (.mftb rD tbr) := formX_row _ _ _ _ _ _
theorem OpcodeRow.sync : OpcodeRow.Statement .sync := formX_row _ _ _ _ _ _
theorem OpcodeRow.isync : OpcodeRow.Statement .isync := formX_row _ _ _ _ _ _
theorem OpcodeRow.eieio : OpcodeRow.Statement .eieio := formX_row _ _ _ _ _ _
theorem OpcodeRow.lwarx (rD rA rB : Reg) : OpcodeRow.Statement (.lwarx rD rA rB) := formX_row _ _ _ _ _ _
theorem OpcodeRow.stwcx (rS rA rB : Reg) : OpcodeRow.Statement (.stwcx rS rA rB) := formX_row_rc _ _ _ _ _ _
theorem OpcodeRow.icbi (rA rB : Reg) : OpcodeRow.Statement (.icbi rA rB) := formX_row _ _ _ _ _ _

end Sys2Proof.Laws
end

