-- ==== Sys2Proof/Tests/Slice0.lean ====
section
/-! SUPPORT. The model's own tests: the well-formedness smoke tests, decoded words of the specification, its test vectors, and one
witness for each statement that has hypotheses. Expected results come from the specification (the files named at each section). -/

namespace Sys2Proof.Tests

open Sys2Proof Sys2Proof.Machine

/-- Every word decodes to the term beside it. -/
def readsAll (l : List (Word × Instr)) : Bool := l.all fun p => decide (decode p.1 = .ok p.2)
/-- After reset, with floating-point available and no exception vectors moved (MSR 0x2002). -/
def start : State := { State.reset with msr := 0x00002002#32 }
/-- General registers set. -/
def withR (s : State) : List (Reg × Word) → State
  | [] => s
  | (n, v) :: l => withR (s.setR n v) l
/-- Floating-point registers set. -/
def withF (s : State) : List (Reg × Dword) → State
  | [] => s
  | (n, v) :: l => withF (s.setF n v) l
/-- Memory bytes set from address `a` on. -/
def withM (s : State) (a : Word) (bs : List Byte) : State := { s with mem := putBytes s.mem a bs }
/-- `p` holds of the state after one step that runs the word `w`. -/
def after (s : State) (w : Word) (p : State → Bool) : Bool :=
  match step (s.withFetchWord 32 w.toNat) with
  | .next t => p t
  | .fault _ => false
  | .refused _ => false
/-- All hold. -/
def allOf (l : List Bool) : Bool := l.all id

/-! Well-formed instructions: one ill-formed term for each check (30_encoding.md R216). -/

theorem test_wellFormed_bc_zBit : (Instr.bc 0b00110#5 0 0 false false).wellFormed = false := by decide
theorem test_wellFormed_bclr_zBit : (Instr.bclr 0b11000#5 0 false).wellFormed = false := by decide
theorem test_wellFormed_bcctr_decrement : (Instr.bcctr 0b00000#5 0 false).wellFormed = false := by decide
theorem test_wellFormed_bcctr_zBit : (Instr.bcctr 0b10111#5 0 false).wellFormed = false := by decide
theorem test_wellFormed_lswx : (Instr.lswx 5 4 5).wellFormed = false := by decide
theorem test_wellFormed_valid :
  (Instr.bc 0b10100#5 0 0 false false).wellFormed = true ∧ (Instr.bclr 0b01101#5 0 false).wellFormed = true ∧
  (Instr.bcctr 0b00101#5 0 false).wellFormed = true ∧ (Instr.lswx 5 4 6).wellFormed = true := by decide

/-! Decode negatives and reserved bits (95_test_vectors.md E3). -/

theorem test_decode_rejects :
  ([0x00000000#32, 0x04000000#32, 0x24000000#32, 0xF8000000#32, 0x44000000#32, 0x7CA0192C#32, 0x7C0018AC#32,
    0x7C001FEC#32, 0x7C001A64#32, 0x7C6004A6#32, 0xFC20102C#32, 0xEC201030#32].all fun w =>
    match decode w with
    | .ok _ => false
    | .error _ => true) = true := by decide

theorem test_decode_reservedBits :
  readsAll [
    (0xFFFFFFFF#32, .fnmadd 31 31 31 31 true),
    (0x7C64282F#32, .lwzx 3 4 5),
    (0x4C000065#32, .rfi),
    (0x7C1FFCAC#32, .sync),
    (0x2C230000#32, .cmpi 0 true 3 0),
    (0x2C430000#32, .cmpi 0 false 3 0)] = true := by decide

/-- `subfic r3,r4,10` as a table word of 32 bits; the word 0 is refused. -/
theorem test_decodeTableWord :
  decodeTableWord 32 0x2064000A = some (.subfic 3 4 10) ∧ decodeTableWord 32 0 = none := by decide

/-- The word of a table row is the first instruction after reset (30_encoding.md R220). -/
theorem test_withFetchWord :
  after State.reset 0x38600064#32 (fun t => t.r 3 == 100 && t.pc == 0x104) = true := by decide

/-! Exception entry (95_test_vectors.md section 4). -/

/-- MSR of the vectors: EE, PR, ME, RI. -/
def user (pc : Word) : State := { State.reset with msr := 0x0000D002#32, pc := pc }

theorem test_X1_systemCall :
  after (user 0x00004004#32) 0x44000002#32 (fun t =>
    t.srr0 == 0x00004008#32 && t.msr == 0x00001000#32 && t.pc == 0x00000C00#32 && bit t.ecr 13 &&
    t.reservation.isNone) = true := by decide
theorem test_X2_privileged :
  after (user 0x00004008#32) 0x7CA000A6#32 (fun t =>
    t.srr0 == 0x00004008#32 && t.srr1 == 0x0004D002#32 && t.msr == 0x00001000#32 && t.pc == 0x00000700#32 &&
    t.r 5 == 0) = true := by decide
theorem test_X3_trap :
  after (user 0x00004010#32) 0x7FE00008#32 (fun t => t.srr0 == 0x00004010#32 && t.srr1 == 0x0002D002#32) = true := by
  decide
theorem test_X4_softwareEmulation :
  after (user 0x00004014#32) 0 (fun t =>
    t.srr0 == 0x00004014#32 && t.srr1 == 0x0000D002#32 && t.pc == 0x00001000#32 && bit t.ecr 17) = true := by decide
theorem test_X6_lmwAlignment :
  after (withR start [(3, 0x00009000#32)]) 0xBBA30002#32 (fun t =>
    t.pc == 0x00000600#32 && t.srr1 == 0x00002002#32 && t.msr == 0 && t.dar == 0x00009002#32) = true := by decide
theorem test_X7_fpUnavailable :
  after { State.reset with msr := 0x00009002#32, pc := 0x00005000#32 } 0xC0230000#32 (fun t =>
    t.srr0 == 0x00005000#32 && t.srr1 == 0x00009002#32 && t.pc == 0x00000800#32) = true := by decide
theorem test_X8_external :
  after { State.reset with msr := 0x00009002#32, pc := 0x00005004#32, irq := true } 0x7C0004AC#32 (fun t =>
    t.srr0 == 0x00005004#32 && t.msr == 0x00001000#32 && t.pc == 0x00000500#32 && bit t.ecr 6) = true := by decide
theorem test_X9_highVectors :
  after { State.reset with msr := 0x00009042#32, pc := 0x00005004#32, irq := true } 0x7C0004AC#32 (fun t =>
    t.msr == 0x00001040#32 && t.pc == 0xFFF00500#32) = true := by decide
theorem test_X10_decrementer :
  after { State.reset with msr := 0x00009002#32, dec := 0, events := [[.tick]] } 0x7C0004AC#32 (fun t =>
    t.dec == 0xFFFFFFFF#32 && t.pc == 0x00000900#32 && !t.decPending) = true := by decide
theorem test_X11_trace :
  after (withR { State.reset with msr := 0x00009402#32, pc := 0x00005000#32 } [(3, 7)]) 0x38630001#32 (fun t =>
    t.srr0 == 0x00005004#32 && t.srr1 == 0x00009402#32 && t.pc == 0x00000D00#32 && t.r 3 == 8) = true := by decide

/-- A platform where loads from 16 MB on end in a bus error. -/
def errorMap : Platform :=
  { Platform.plain with
    map := [{ first := 0x01000000#32, last := 0xFFFFFFFF#32, errFetch := false, errLoad := true, errStore := false
              inhibited := false }] }

/-- A load from there, with ILE = 1 and ME as given. -/
def beforeBusError (msr : Word) : State :=
  withR { State.reset with msr := msr, pc := 0x00004000#32, platform := errorMap } [(4, 0x01000000#32)]

theorem test_X12_machineCheck :
  after (beforeBusError 0x00019002#32) 0x80640000#32 (fun t =>
    t.srr0 == 0x00004000#32 && t.srr1 == 0x00009002#32 && t.msr == 0x00010001#32 && t.pc == 0x00000200#32 &&
    t.dar == 0x01000000#32 && t.dsisr == 0x00000064#32) = true := by decide
theorem test_X13_checkstop :
  after (beforeBusError 0x00018002#32) 0x80640000#32 (fun t => t.checkstop && t.pc == 0x00004000#32) = true := by decide
theorem test_X14_rfi :
  after { State.reset with msr := 0x00001000#32, srr0 := 0x00004009#32, srr1 := 0xFFFFD002#32 } 0x4C000064#32 (fun t =>
    t.msr == 0x0000D002#32 && t.pc == 0x00004008#32 && t.srr0 == 0x00004009#32) = true := by decide

/-! Conversion (95_test_vectors.md V44): the word that the open half of frD does not touch. -/

theorem test_convertWord :
  (convertWord 0x4004000000000000#64 0#2).word = 2#32 ∧ (convertWord 0x4004000000000000#64 2#2).word = 3#32 ∧
  (convertWord 0xC00E000000000000#64 1#2).word = 0xFFFFFFFD#32 ∧
  (convertWord 0x41E0000000000000#64 1#2).invalid = fpVXCVI ∧
  (convertWord 0xC1E0000000000000#64 1#2).word = 0x80000000#32 ∧
  (convertWord 0x7FF0000000000001#64 1#2).invalid = fpVXSNAN ||| fpVXCVI := by decide

/-! Special registers (49_processor_control_sync_cache.md R591: the stored bits of XER). -/

theorem test_mtspr_xer : after (withR start [(3, 0xFFFFFFFF#32)]) 0x7C6103A6#32 (fun t => t.xer == 0xE000FF7F#32) = true := by
  decide
theorem test_mfspr_external_user :
  after { user 0x100#32 with dec := 5 } 0x7C7602A6#32 (fun t => t.pc == 0x700 && bits t.srr1 0 16 == 4) = true := by decide
theorem test_mfspr_missing :
  after start 0x7C7082A6#32 (fun t => t.pc == 0x1000) = true ∧
  after (user 0x100#32) 0x7C7082A6#32 (fun t => t.pc == 0x700) = true := by decide

/-! The cache (20_memory.md R168 to R175): a line read from memory stays when memory changes, until `icbi`; an evicted line is still
served by the line buffer; load & lock. -/

/-- `p` holds of the word fetched from `a` and the state it leaves. -/
def fetched (s : State) (a : Word) (p : Word → State → Bool) : Bool :=
  match s.fetchThrough a with
  | .word w t => p w t
  | .busError _ => false

/-- The cache enabled, and `sync` in memory at the reset vector. -/
def cacheStart : State := withM { start with iccst := 0x80000000#32 } 0x100#32 [0x7C, 0x00, 0x04, 0xAC]

theorem test_cache_fill :
  fetched cacheStart 0x100#32 (fun w t =>
    w == 0x7C0004AC#32 && t.inArrays 0x100#32 && t.icache.burst.isSome &&
    fetched (withM t 0x100#32 [0]) 0x100#32 (fun v u => v == w && u.icache.line.isSome)) = true := by decide
theorem test_lineBuffer :
  fetched { cacheStart with icache := { ICache.empty with
      line := some { line := lineOf 0x100#32, word0 := 7, word1 := 0, word2 := 0, word3 := 9, inhibited := false, fresh := 0 } } }
    0x10C#32 (fun w t => w == 9 && !t.inArrays 0x100#32 && t.icache.burst.isNone) = true := by decide
theorem test_icbi :
  fetched cacheStart 0x100#32 (fun _ t =>
    match exec (.icbi 0 3) (withR t [(3, 0x104)]) with
    | .next u => !u.inArrays 0x100#32 && u.icache.burst.isNone
    | .fault _ => false
    | .refused _ => false) = true := by decide
theorem test_loadLock :
  (let t := { cacheStart with icadr := 0x100#32 }.cacheCommand 0x06000000#32
   t.lockedLine 0x100#32 && t.icache.burst.isSome && !bit t.iccst 10 && !bit t.iccst 11) = true := by decide

/-- An older version in the arrays may be in the queue after `icbi` (R184) or a disable, until `isync`. -/
theorem test_icbi_prefetched :
  (let s := { start with
     iccst := 0x80000000#32, stale := [{ addr := 0x104#32, old := 7, queued := false, buffered := false, cached := true }] }
   (s.invalidateBlock 0x100#32).oldVersions 0x104#32 == [7] && (s.invalidateBlock 0x100#32).flushFetch.stale.isEmpty &&
     (s.cacheCommand 0x04000000#32).oldVersions 0x104#32 == [7] &&
     (s.cacheCommand 0x04000000#32).flushFetch.oldVersions 0x104#32 == []) = true := by decide
/-- Unlock all leaves an invalid line as it is (R177). -/
theorem test_unlockAll_invalid :
  ({ CacheLine.empty with lock := true }.unlock.lock && !{ CacheLine.empty with lock := true, valid := true }.unlock.lock) = true := by
  decide

/-! Debug mode: an instruction from the development tool (62_debug_mode_and_port.md R752). -/

theorem test_debug_instruction :
  (match step (withR { start with
      inDebug := true, debugEnabled := true, port := { Port.idle with inbox := [.cpuInstr 0x38630001#32] } } [(3, 7)]) with
   | .next t => t.r 3 == 8 && t.pc == 0x100 && t.inDebug
   | .fault _ => false
   | .refused _ => false) = true := by decide

/-! Writes of another bus master between the two cycles of a misaligned load, and RESET during an instruction
(20_memory.md R152; 70_reset_and_hazards.md R802). -/

theorem test_intrusion :
  after { start with events := [[.busWriteDuring 1 0x12#32 0xAA#8, .busWriteDuring 1 0x14#32 0xBB#8]] } 0x80600012#32 (fun t =>
    t.r 3 == 0x0000BB00#32 && t.byteAt 0x12#32 == 0xAA#8 && t.intrusions.isEmpty) = true := by decide
theorem test_resetDuring :
  after { start with events := [[.assertResetDuring]] } 0x38600064#32 (fun t =>
    t.resetAsserted && t.r 3 == 0 && t.pc == 0x100) = true := by decide
/-- Abandoned, `icbi` leaves its line in the arrays, and an invalid form of `bcctr` ends as any other instruction does. -/
theorem test_resetDuring_cache :
  (let line : CacheLine := { tag := tagOf 0x1234#32, valid := true, lock := false, word0 := 1, word1 := 2, word2 := 3, word3 := 4 }
   let s := withR { start with
     icache := ICache.empty.putSet (setOf 0x1234#32) { CacheSet.empty with way0 := line } } [(3, 0x1234)]
   after { s with events := [[.assertResetDuring]] } 0x7C001FAC#32 (fun t => t.resetAsserted && t.inArrays 0x1234#32) &&
     after s 0x7C001FAC#32 (fun t => !t.inArrays 0x1234#32)) = true := by decide
theorem test_resetDuring_invalid :
  after { start with events := [[.assertResetDuring]] } 0x4C000420#32 (fun t => t.resetAsserted && t.pc == 0x100) = true := by decide

/-- Encodings printed in 40_integer_arith.md. -/
theorem test_decode_integer_arith :
  readsAll [
    (0x3864FFFF#32, .addi 3 4 65535),
    (0x3C601234#32, .addis 3 0 4660),
    (0x7C642E15#32, .add 3 4 5 true true),
    (0x30640001#32, .addic 3 4 1),
    (0x3464FFFF#32, .addicRc 3 4 65535),
    (0x7C642814#32, .addc 3 4 5 false false),
    (0x7C642914#32, .adde 3 4 5 false false),
    (0x7C6401D4#32, .addme 3 4 false false),
    (0x7C640595#32, .addze 3 4 true true),
    (0x7C642C50#32, .subf 3 4 5 true false),
    (0x2064000A#32, .subfic 3 4 10),
    (0x7C642810#32, .subfc 3 4 5 false false),
    (0x7C642910#32, .subfe 3 4 5 false false),
    (0x7C6401D0#32, .subfme 3 4 false false),
    (0x7C640190#32, .subfze 3 4 false false),
    (0x7C6404D1#32, .neg 3 4 true true),
    (0x1C64FFFD#32, .mulli 3 4 65533),
    (0x7C642DD7#32, .mullw 3 4 5 true true),
    (0x7C642896#32, .mulhw 3 4 5 false),
    (0x7C642817#32, .mulhwu 3 4 5 true),
    (0x7C642FD7#32, .divw 3 4 5 true true),
    (0x7C642F96#32, .divwu 3 4 5 true false)] = true := by decide

/-- Encodings printed in 41_integer_compare_logical.md. -/
theorem test_decode_compare_logical :
  readsAll [
    (0x2C83FFFF#32, .cmpi 1 false 3 65535),
    (0x7F832000#32, .cmp 7 false 3 4),
    (0x2903FFFF#32, .cmpli 2 false 3 65535),
    (0x7C032040#32, .cmpl 0 false 3 4),
    (0x708300FF#32, .andiRc 3 4 255),
    (0x74838000#32, .andisRc 3 4 32768),
    (0x60831234#32, .ori 3 4 4660),
    (0x64831234#32, .oris 3 4 4660),
    (0x6883FFFF#32, .xori 3 4 65535),
    (0x6C83FFFF#32, .xoris 3 4 65535),
    (0x7C832838#32, .and 3 4 5 false),
    (0x7C832B79#32, .or 3 4 5 true),
    (0x7C832A78#32, .xor 3 4 5 false),
    (0x7C832BB8#32, .nand 3 4 5 false),
    (0x7C8320F9#32, .nor 3 4 4 true),
    (0x7C832A38#32, .eqv 3 4 5 false),
    (0x7C832878#32, .andc 3 4 5 false),
    (0x7C832B38#32, .orc 3 4 5 false),
    (0x7C830775#32, .extsb 3 4 true),
    (0x7C830734#32, .extsh 3 4 false),
    (0x7C830035#32, .cntlzw 3 4 true)] = true := by decide

/-- Encodings printed in 42_rotate_shift.md. -/
theorem test_decode_rotate_shift :
  readsAll [
    (0x5483843F#32, .rlwinm 3 4 16 16 31 true),
    (0x5C83283E#32, .rlwnm 3 4 5 0 31 false),
    (0x5083801E#32, .rlwimi 3 4 16 0 15 false),
    (0x7C832830#32, .slw 3 4 5 false),
    (0x7C832C31#32, .srw 3 4 5 true),
    (0x7C832E30#32, .sraw 3 4 5 false),
    (0x7C83FE71#32, .srawi 3 4 31 true)] = true := by decide

/-- Encodings printed in 43_fp_arith.md. -/
theorem test_decode_fp_arith :
  readsAll [
    (0xFC22182B#32, .fadd 1 2 3 true),
    (0xEC22182A#32, .fadds 1 2 3 false),
    (0xFC221828#32, .fsub 1 2 3 false),
    (0xEC221828#32, .fsubs 1 2 3 false),
    (0xFC2200F2#32, .fmul 1 2 3 false),
    (0xEC2200F2#32, .fmuls 1 2 3 false),
    (0xFC221824#32, .fdiv 1 2 3 false),
    (0xEC221824#32, .fdivs 1 2 3 false),
    (0xFC2220FA#32, .fmadd 1 2 3 4 false),
    (0xEC2220FB#32, .fmadds 1 2 3 4 true),
    (0xFC2220F8#32, .fmsub 1 2 3 4 false),
    (0xEC2220F8#32, .fmsubs 1 2 3 4 false),
    (0xFC2220FE#32, .fnmadd 1 2 3 4 false),
    (0xEC2220FE#32, .fnmadds 1 2 3 4 false),
    (0xFC2220FC#32, .fnmsub 1 2 3 4 false),
    (0xEC2220FC#32, .fnmsubs 1 2 3 4 false)] = true := by decide

/-- Encodings printed in 44_fp_convert_compare_fpscr.md. -/
theorem test_decode_fp_convert :
  readsAll [
    (0xFC201018#32, .frsp 1 2 false),
    (0xFC20101C#32, .fctiw 1 2 false),
    (0xFC20101E#32, .fctiwz 1 2 false),
    (0xFD011000#32, .fcmpu 2 1 2),
    (0xFD011040#32, .fcmpo 2 1 2),
    (0xFC20048E#32, .mffs 1 false),
    (0xFD040080#32, .mcrfs 2 1),
    (0xFF80110C#32, .mtfsfi 7 1 false),
    (0xFDFE158E#32, .mtfsf 255 2 false),
    (0xFFC0008C#32, .mtfsb0 30 false),
    (0xFFA0004C#32, .mtfsb1 29 false)] = true := by decide

/-- Encodings printed in 45_load_store_int.md. -/
theorem test_decode_integer_load :
  readsAll [
    (0x88640008#32, .lbz 3 8 4),
    (0x8C640008#32, .lbzu 3 8 4),
    (0x7C6428AE#32, .lbzx 3 4 5),
    (0x7C6428EE#32, .lbzux 3 4 5),
    (0xA0640008#32, .lhz 3 8 4),
    (0xA464FFFC#32, .lhzu 3 65532 4),
    (0x7C642A2E#32, .lhzx 3 4 5),
    (0x7C642A6E#32, .lhzux 3 4 5),
    (0xA8640008#32, .lha 3 8 4),
    (0xAC640008#32, .lhau 3 8 4),
    (0x7C642AAE#32, .lhax 3 4 5),
    (0x7C642AEE#32, .lhaux 3 4 5),
    (0x80640008#32, .lwz 3 8 4),
    (0x84640008#32, .lwzu 3 8 4),
    (0x7C64282E#32, .lwzx 3 4 5),
    (0x7C64286E#32, .lwzux 3 4 5),
    (0x7C642E2C#32, .lhbrx 3 4 5),
    (0x7C642C2C#32, .lwbrx 3 4 5)] = true := by decide

/-- Encodings printed in 45_load_store_int.md. -/
theorem test_decode_integer_store :
  readsAll [
    (0x98640008#32, .stb 3 8 4),
    (0x9C640008#32, .stbu 3 8 4),
    (0x7C6429AE#32, .stbx 3 4 5),
    (0x7C6429EE#32, .stbux 3 4 5),
    (0xB0640008#32, .sth 3 8 4),
    (0xB464FFFC#32, .sthu 3 65532 4),
    (0x7C642B2E#32, .sthx 3 4 5),
    (0x7C642B6E#32, .sthux 3 4 5),
    (0x90640008#32, .stw 3 8 4),
    (0x94640008#32, .stwu 3 8 4),
    (0x7C64292E#32, .stwx 3 4 5),
    (0x7C64296E#32, .stwux 3 4 5),
    (0x7C642F2C#32, .sthbrx 3 4 5),
    (0x7C642D2C#32, .stwbrx 3 4 5)] = true := by decide

/-- Encodings printed in 46_load_store_multiple_string.md. -/
theorem test_decode_multiple_string :
  readsAll [
    (0xBBA40008#32, .lmw 29 8 4),
    (0xBFC1FFF8#32, .stmw 30 65528 1),
    (0x7CA434AA#32, .lswi 5 4 6),
    (0x7CA4342A#32, .lswx 5 4 6),
    (0x7CA435AA#32, .stswi 5 4 6),
    (0x7CA4352A#32, .stswx 5 4 6)] = true := by decide

/-- Encodings printed in 47_load_store_fp_move.md. -/
theorem test_decode_fp_load_store :
  readsAll [
    (0xC0230008#32, .lfs 1 8 3),
    (0xC4230004#32, .lfsu 1 4 3),
    (0x7C23242E#32, .lfsx 1 3 4),
    (0x7C23246E#32, .lfsux 1 3 4),
    (0xC8430010#32, .lfd 2 16 3),
    (0xCC430008#32, .lfdu 2 8 3),
    (0x7C4324AE#32, .lfdx 2 3 4),
    (0x7C4324EE#32, .lfdux 2 3 4),
    (0xD0230008#32, .stfs 1 8 3),
    (0xD423FFFC#32, .stfsu 1 65532 3),
    (0x7C23252E#32, .stfsx 1 3 4),
    (0x7C23256E#32, .stfsux 1 3 4),
    (0xD8430010#32, .stfd 2 16 3),
    (0xDC41FFF8#32, .stfdu 2 65528 1),
    (0x7C4325AE#32, .stfdx 2 3 4),
    (0x7C4325EE#32, .stfdux 2 3 4),
    (0x7C2327AE#32, .stfiwx 1 3 4),
    (0xFC201091#32, .fmr 1 2 true),
    (0xFC201050#32, .fneg 1 2 false),
    (0xFC201210#32, .fabs 1 2 false),
    (0xFC201110#32, .fnabs 1 2 false)] = true := by decide

/-- Encodings printed in 48_branch_cr_system_trap.md. -/
theorem test_decode_branch_cr_trap :
  readsAll [
    (0x4C011202#32, .crand 0 1 2),
    (0x4FE00B82#32, .cror 31 0 1),
    (0x4CC63182#32, .crxor 6 6 6),
    (0x4C0001C2#32, .crnand 0 0 0),
    (0x4C011042#32, .crnor 0 1 2),
    (0x4CC63242#32, .creqv 6 6 6),
    (0x4C011102#32, .crandc 0 1 2),
    (0x4C011342#32, .crorc 0 1 2),
    (0x4C1C0000#32, .mcrf 0 7),
    (0x44000002#32, .sc),
    (0x4C000064#32, .rfi),
    (0x7E032008#32, .tw 16 3 4),
    (0x0C830000#32, .twi 4 3 0)] = true := by decide

/-- Encodings printed in 49_processor_control_sync_cache.md. -/
theorem test_decode_control :
  readsAll [
    (0x7C600026#32, .mfcr 3),
    (0x7CEFF120#32, .mtcrf 255 7),
    (0x7C000400#32, .mcrxr 0),
    (0x7C6000A6#32, .mfmsr 3),
    (0x7C600124#32, .mtmsr 3),
    (0x7C7A02A6#32, .mfspr 3 26),
    (0x7C9A03A6#32, .mtspr 26 4),
    (0x7CAC42E6#32, .mftb 5 268),
    (0x7C0004AC#32, .sync),
    (0x4C00012C#32, .isync),
    (0x7C0006AC#32, .eieio),
    (0x7CA01828#32, .lwarx 5 0 3),
    (0x7CA0192D#32, .stwcx 5 0 3),
    (0x7C001FAC#32, .icbi 0 3)] = true := by decide

/-- Branches, with the fields of 30_encoding.md R220 and 95_test_vectors.md E2. -/
theorem test_decode_branch :
  readsAll [
    (0x4BFFFFF3#32, .b 0xFFFFFC true true),
    (0x48000008#32, .b 2 false false),
    (0x4200FFF8#32, .bc 16 0 0x3FFE false false),
    (0x41820010#32, .bc 12 2 4 false false),
    (0x4D860020#32, .bclr 12 6 false),
    (0x4E800021#32, .bclr 20 0 true),
    (0x4E800420#32, .bcctr 20 0 false),
    (0x4C820421#32, .bcctr 4 2 true)] = true := by decide

/-- Vectors V40 of 95_test_vectors.md. -/
theorem test_integer_arith_1 :
  allOf [
    -- add r3,r4,r5
    after (withR start [(4, 0x7FFFFFFF#32), (5, 0x00000001#32)]) 0x7C642A14#32 fun t =>
      t.r 3 == 0x80000000#32 && t.xer == 0#32,
    -- addo. r3,r4,r5
    after (withR start [(4, 0x7FFFFFFF#32), (5, 0x00000001#32)]) 0x7C642E15#32 fun t =>
      t.r 3 == 0x80000000#32 && t.xer == 0xC0000000#32 && bits t.cr 0 4 == 9#4,
    -- addc r3,r4,r5
    after (withR start [(4, 0xFFFFFFFF#32), (5, 0x00000001#32)]) 0x7C642814#32 fun t =>
      t.r 3 == 0#32 && t.xer == 0x20000000#32,
    -- adde r3,r4,r5
    after (withR ({ start with xer := 0x20000000#32 }) [(4, 0xFFFFFFFF#32), (5, 0x00000000#32)]) 0x7C642914#32 fun t =>
      t.r 3 == 0#32 && t.xer == 0x20000000#32,
    -- addme r3,r4
    after (withR ({ start with xer := 0x00000000#32 }) [(4, 0x00000000#32)]) 0x7C6401D4#32 fun t =>
      t.r 3 == 0xFFFFFFFF#32 && t.xer == 0#32,
    -- addme r3,r4
    after (withR ({ start with xer := 0x20000000#32 }) [(4, 0x00000000#32)]) 0x7C6401D4#32 fun t =>
      t.r 3 == 0#32 && t.xer == 0x20000000#32,
    -- addze. r3,r4
    after (withR ({ start with xer := 0x20000000#32 }) [(4, 0xFFFFFFFF#32)]) 0x7C640195#32 fun t =>
      t.r 3 == 0#32 && t.xer == 0x20000000#32 && bits t.cr 0 4 == 2#4,
    -- addi r3,r0,-1
    after (withR start [(0, 0x12345678#32)]) 0x3860FFFF#32 fun t =>
      t.r 3 == 0xFFFFFFFF#32] = true := by decide

/-- Vectors V40 of 95_test_vectors.md. -/
theorem test_integer_arith_2 :
  allOf [
    -- addis r3,r4,0x8000
    after (withR start [(4, 0x00001234#32)]) 0x3C648000#32 fun t =>
      t.r 3 == 0x80001234#32,
    -- addic r3,r4,-1
    after (withR start [(4, 0x00000000#32)]) 0x3064FFFF#32 fun t =>
      t.r 3 == 0xFFFFFFFF#32 && t.xer == 0#32,
    -- addic. r3,r4,1
    after (withR start [(4, 0xFFFFFFFF#32)]) 0x34640001#32 fun t =>
      t.r 3 == 0#32 && t.xer == 0x20000000#32 && bits t.cr 0 4 == 2#4,
    -- subf r3,r4,r5
    after (withR start [(4, 0x00000005#32), (5, 0x00000003#32)]) 0x7C642850#32 fun t =>
      t.r 3 == 0xFFFFFFFE#32,
    -- subfo r3,r4,r5
    after (withR start [(4, 0x00000001#32), (5, 0x80000000#32)]) 0x7C642C50#32 fun t =>
      t.r 3 == 0x7FFFFFFF#32 && t.xer == 0xC0000000#32,
    -- subfc r3,r4,r5
    after (withR start [(4, 0x00000005#32), (5, 0x00000003#32)]) 0x7C642810#32 fun t =>
      t.r 3 == 0xFFFFFFFE#32 && t.xer == 0#32,
    -- subfc r3,r4,r5
    after (withR start [(4, 0x00000003#32), (5, 0x00000005#32)]) 0x7C642810#32 fun t =>
      t.r 3 == 2#32 && t.xer == 0x20000000#32,
    -- subfe r3,r4,r5
    after (withR ({ start with xer := 0x00000000#32 }) [(4, 0x00000000#32), (5, 0x00000000#32)]) 0x7C642910#32 fun t =>
      t.r 3 == 0xFFFFFFFF#32 && t.xer == 0#32] = true := by decide

/-- Vectors V40 of 95_test_vectors.md. -/
theorem test_integer_arith_3 :
  allOf [
    -- subfic r3,r4,0
    after (withR start [(4, 0x00000001#32)]) 0x20640000#32 fun t =>
      t.r 3 == 0xFFFFFFFF#32 && t.xer == 0#32,
    -- subfic r3,r4,0
    after (withR start [(4, 0x00000000#32)]) 0x20640000#32 fun t =>
      t.r 3 == 0#32 && t.xer == 0x20000000#32,
    -- subfme r3,r4
    after (withR ({ start with xer := 0x20000000#32 }) [(4, 0xFFFFFFFF#32)]) 0x7C6401D0#32 fun t =>
      t.r 3 == 0#32 && t.xer == 0x20000000#32,
    -- subfze r3,r4
    after (withR ({ start with xer := 0x20000000#32 }) [(4, 0x00000000#32)]) 0x7C640190#32 fun t =>
      t.r 3 == 0#32 && t.xer == 0x20000000#32,
    -- neg r3,r4
    after (withR start [(4, 0x80000000#32)]) 0x7C6400D0#32 fun t =>
      t.r 3 == 0x80000000#32 && t.xer == 0#32,
    -- nego. r3,r4
    after (withR start [(4, 0x80000000#32)]) 0x7C6404D1#32 fun t =>
      t.r 3 == 0x80000000#32 && t.xer == 0xC0000000#32 && bits t.cr 0 4 == 9#4,
    -- mulli r3,r4,-3
    after (withR start [(4, 0x40000000#32)]) 0x1C64FFFD#32 fun t =>
      t.r 3 == 0x40000000#32 && t.xer == 0#32,
    -- mullw r3,r4,r5
    after (withR start [(4, 0x00010000#32), (5, 0x00010000#32)]) 0x7C6429D6#32 fun t =>
      t.r 3 == 0#32] = true := by decide

/-- Vectors V40 of 95_test_vectors.md. -/
theorem test_integer_arith_4 :
  allOf [
    -- mullwo. r3,r4,r5
    after (withR start [(4, 0x00010000#32), (5, 0x00010000#32)]) 0x7C642DD7#32 fun t =>
      t.r 3 == 0#32 && t.xer == 0xC0000000#32 && bits t.cr 0 4 == 3#4,
    -- mulhw r3,r4,r5
    after (withR start [(4, 0x80000000#32), (5, 0x80000000#32)]) 0x7C642896#32 fun t =>
      t.r 3 == 0x40000000#32,
    -- mulhwu. r3,r4,r5
    after (withR start [(4, 0xFFFFFFFF#32), (5, 0xFFFFFFFF#32)]) 0x7C642817#32 fun t =>
      t.r 3 == 0xFFFFFFFE#32 && bits t.cr 0 4 == 8#4,
    -- divw r3,r4,r5
    after (withR start [(4, 0xFFFFFFF9#32), (5, 0x00000002#32)]) 0x7C642BD6#32 fun t =>
      t.r 3 == 0xFFFFFFFD#32,
    -- divw r3,r4,r5
    after (withR start [(4, 0x00000007#32), (5, 0xFFFFFFFE#32)]) 0x7C642BD6#32 fun t =>
      t.r 3 == 0xFFFFFFFD#32,
    -- divwu r3,r4,r5
    after (withR start [(4, 0x80000000#32), (5, 0xFFFFFFFF#32)]) 0x7C642B96#32 fun t =>
      t.r 3 == 0#32,
    -- divwuo r3,r4,r5
    after (withR ({ start with xer := 0x00000000#32 }) [(4, 0x00000001#32), (5, 0x00000000#32)]) 0x7C642F96#32 fun t =>
      t.xer == 0xC0000000#32] = true := by decide

/-- Vectors V41 of 95_test_vectors.md. -/
theorem test_compare_logical_1 :
  allOf [
    -- cmpi cr0,0,r3,-1
    after (withR start [(3, 0xFFFFFFFF#32)]) 0x2C03FFFF#32 fun t =>
      bits t.cr 0 4 == 2#4,
    -- cmpi cr7,0,r3,1
    after (withR ({ start with xer := 0x80000000#32 }) [(3, 0x80000000#32)]) 0x2F830001#32 fun t =>
      t.cr == 9#32,
    -- cmpli cr7,0,r3,1
    after (withR start [(3, 0x80000000#32)]) 0x2B830001#32 fun t =>
      t.cr == 4#32,
    -- cmpli cr1,0,r3,0xFFFF
    after (withR start [(3, 0x0000FFFF#32)]) 0x2883FFFF#32 fun t =>
      t.cr == 0x02000000#32,
    -- cmp cr2,0,r3,r4
    after (withR start [(3, 0xFFFFFFFF#32), (4, 0x00000001#32)]) 0x7D032000#32 fun t =>
      t.cr == 0x00800000#32,
    -- cmp cr2,1,r3,r4
    after (withR start [(3, 0xFFFFFFFF#32), (4, 0x00000001#32)]) 0x7D232000#32 fun t =>
      t.cr == 0x00800000#32,
    -- cmpl cr2,0,r3,r4
    after (withR start [(3, 0xFFFFFFFF#32), (4, 0x00000001#32)]) 0x7D032040#32 fun t =>
      t.cr == 0x00400000#32,
    -- andi. r3,r4,0x00FF
    after (withR start [(4, 0x12345678#32)]) 0x708300FF#32 fun t =>
      t.r 3 == 0x00000078#32 && bits t.cr 0 4 == 4#4] = true := by decide

/-- Vectors V41 of 95_test_vectors.md. -/
theorem test_compare_logical_2 :
  allOf [
    -- andis. r3,r4,0x8000
    after (withR start [(4, 0xFFFFFFFF#32)]) 0x74838000#32 fun t =>
      t.r 3 == 0x80000000#32 && bits t.cr 0 4 == 8#4,
    -- ori r0,r0,0
    after (withR start [(0, 0xCAFEBABE#32)]) 0x60000000#32 fun t =>
      t.r 0 == 0xCAFEBABE#32,
    -- oris r3,r4,0xFFFF
    after (withR start [(4, 0x00001234#32)]) 0x6483FFFF#32 fun t =>
      t.r 3 == 0xFFFF1234#32,
    -- xori r3,r4,0xFFFF
    after (withR start [(4, 0x0000FFFF#32)]) 0x6883FFFF#32 fun t =>
      t.r 3 == 0#32,
    -- xoris r3,r4,0x8000
    after (withR start [(4, 0x80000000#32)]) 0x6C838000#32 fun t =>
      t.r 3 == 0#32,
    -- and r3,r4,r5
    after (withR start [(4, 0x0F0F00FF#32), (5, 0x00FF0F0F#32)]) 0x7C832838#32 fun t =>
      t.r 3 == 0x000F000F#32,
    -- or r3,r4,r5
    after (withR start [(4, 0x0F0F00FF#32), (5, 0x00FF0F0F#32)]) 0x7C832B78#32 fun t =>
      t.r 3 == 0x0FFF0FFF#32,
    -- xor r3,r4,r5
    after (withR start [(4, 0x0F0F00FF#32), (5, 0x00FF0F0F#32)]) 0x7C832A78#32 fun t =>
      t.r 3 == 0x0FF00FF0#32] = true := by decide

/-- Vectors V41 of 95_test_vectors.md. -/
theorem test_compare_logical_3 :
  allOf [
    -- nand r3,r4,r5
    after (withR start [(4, 0x0F0F00FF#32), (5, 0x00FF0F0F#32)]) 0x7C832BB8#32 fun t =>
      t.r 3 == 0xFFF0FFF0#32,
    -- nor r3,r4,r5
    after (withR start [(4, 0x0F0F00FF#32), (5, 0x00FF0F0F#32)]) 0x7C8328F8#32 fun t =>
      t.r 3 == 0xF000F000#32,
    -- nor. r3,r4,r4
    after (withR start [(4, 0x00000000#32)]) 0x7C8320F9#32 fun t =>
      t.r 3 == 0xFFFFFFFF#32 && bits t.cr 0 4 == 8#4,
    -- eqv r3,r4,r5
    after (withR start [(4, 0x0F0F00FF#32), (5, 0x00FF0F0F#32)]) 0x7C832A38#32 fun t =>
      t.r 3 == 0xF00FF00F#32,
    -- andc r3,r4,r5
    after (withR start [(4, 0x0F0F00FF#32), (5, 0x00FF0F0F#32)]) 0x7C832878#32 fun t =>
      t.r 3 == 0x0F0000F0#32,
    -- orc r3,r4,r5
    after (withR start [(4, 0x0F0F00FF#32), (5, 0x00FF0F0F#32)]) 0x7C832B38#32 fun t =>
      t.r 3 == 0xFF0FF0FF#32,
    -- extsb r3,r4
    after (withR start [(4, 0x12345680#32)]) 0x7C830774#32 fun t =>
      t.r 3 == 0xFFFFFF80#32,
    -- extsb. r3,r4
    after (withR start [(4, 0xFFFFFF00#32)]) 0x7C830775#32 fun t =>
      t.r 3 == 0#32 && bits t.cr 0 4 == 2#4] = true := by decide

/-- Vectors V41 of 95_test_vectors.md. -/
theorem test_compare_logical_4 :
  allOf [
    -- extsh r3,r4
    after (withR start [(4, 0x00018000#32)]) 0x7C830734#32 fun t =>
      t.r 3 == 0xFFFF8000#32,
    -- cntlzw r3,r4
    after (withR start [(4, 0x00000000#32)]) 0x7C830034#32 fun t =>
      t.r 3 == 0x00000020#32,
    -- cntlzw. r3,r4
    after (withR start [(4, 0x00010000#32)]) 0x7C830035#32 fun t =>
      t.r 3 == 0x0000000F#32 && bits t.cr 0 4 == 4#4] = true := by decide

/-- Vectors V42 of 95_test_vectors.md. -/
theorem test_rotate_shift_1 :
  allOf [
    -- rlwinm r3,r4,0,28,3
    after (withR start [(4, 0xFFFFFFFF#32)]) 0x54830706#32 fun t =>
      t.r 3 == 0xF000000F#32,
    -- rlwinm. r3,r4,16,16,31
    after (withR start [(4, 0x80000000#32)]) 0x5483843F#32 fun t =>
      t.r 3 == 0x00008000#32 && bits t.cr 0 4 == 4#4,
    -- rlwnm r3,r4,r5,0,31
    after (withR start [(4, 0x12345678#32), (5, 0xFFFFFFE4#32)]) 0x5C83283E#32 fun t =>
      t.r 3 == 0x23456781#32,
    -- rlwimi r3,r4,8,16,23
    after (withR start [(3, 0xAAAAAAAA#32), (4, 0x000000CD#32)]) 0x5083442E#32 fun t =>
      t.r 3 == 0xAAAACDAA#32,
    -- rlwimi r3,r4,0,0,31
    after (withR start [(3, 0xAAAAAAAA#32), (4, 0x55555555#32)]) 0x5083003E#32 fun t =>
      t.r 3 == 0x55555555#32,
    -- slw r3,r4,r5
    after (withR start [(4, 0xFFFFFFFF#32), (5, 0x0000001F#32)]) 0x7C832830#32 fun t =>
      t.r 3 == 0x80000000#32,
    -- slw r3,r4,r5
    after (withR start [(4, 0xFFFFFFFF#32), (5, 0x00000040#32)]) 0x7C832830#32 fun t =>
      t.r 3 == 0xFFFFFFFF#32,
    -- srw r3,r4,r5
    after (withR start [(4, 0x80000000#32), (5, 0x0000001F#32)]) 0x7C832C30#32 fun t =>
      t.r 3 == 1#32] = true := by decide

/-- Vectors V42 of 95_test_vectors.md. -/
theorem test_rotate_shift_2 :
  allOf [
    -- srw. r3,r4,r5
    after (withR start [(4, 0x80000000#32), (5, 0x0000003F#32)]) 0x7C832C31#32 fun t =>
      t.r 3 == 0#32 && bits t.cr 0 4 == 2#4,
    -- sraw r3,r4,r5
    after (withR start [(4, 0x80000000#32), (5, 0x00000020#32)]) 0x7C832E30#32 fun t =>
      t.r 3 == 0xFFFFFFFF#32 && xerCA t.xer == true,
    -- sraw r3,r4,r5
    after (withR ({ start with xer := 0x20000000#32 }) [(4, 0x7FFFFFFF#32), (5, 0x00000028#32)]) 0x7C832E30#32 fun t =>
      t.r 3 == 0#32 && xerCA t.xer == false,
    -- srawi. r3,r4,31
    after (withR start [(4, 0x80000000#32)]) 0x7C83FE71#32 fun t =>
      t.r 3 == 0xFFFFFFFF#32 && bits t.cr 0 4 == 8#4 && xerCA t.xer == false,
    -- srawi r3,r4,0
    after (withR ({ start with xer := 0x20000000#32 }) [(4, 0x80000001#32)]) 0x7C830670#32 fun t =>
      t.r 3 == 0x80000001#32 && xerCA t.xer == false] = true := by decide

/-- Vectors V45 of 95_test_vectors.md. -/
theorem test_integer_load_store_1 :
  allOf [
    -- lbz r3,0(r4)
    after (withM (withR ({ start with msr := 0x00002003#32 }) [(4, 0x00001000#32)]) 0x00001000#32 [0x11, 0x22, 0x33,
      0x44, 0x88, 0x99, 0xAA, 0xBB]) 0x88640000#32 fun t =>
      t.r 3 == 0x000000BB#32,
    -- lbz r3,3(r4)
    after (withM (withR ({ start with msr := 0x00002003#32 }) [(4, 0x00001000#32)]) 0x00001000#32 [0x11, 0x22, 0x33,
      0x44, 0x88, 0x99, 0xAA, 0xBB]) 0x88640003#32 fun t =>
      t.r 3 == 0x00000088#32,
    -- lhz r3,4(r4)
    after (withM (withM (withR start [(4, 0x00001000#32)]) 0x00001000#32 [0x11, 0x22, 0x33, 0x44]) 0x00001004#32 [0x88,
      0x99, 0xAA, 0xBB]) 0xA0640004#32 fun t =>
      t.r 3 == 0x00008899#32,
    -- lhz r3,1(r4)
    after (withM (withR ({ start with msr := 0x00002003#32 }) [(4, 0x00001000#32)]) 0x00001000#32 [0x11, 0x22, 0x33,
      0x44, 0x88, 0x99, 0xAA, 0xBB]) 0xA0640001#32 fun t =>
      t.dar == 0x00001001#32 && t.pc == 0x600,
    -- lha r3,4(r4)
    after (withM (withM (withR start [(4, 0x00001000#32)]) 0x00001000#32 [0x11, 0x22, 0x33, 0x44]) 0x00001004#32 [0x88,
      0x99, 0xAA, 0xBB]) 0xA8640004#32 fun t =>
      t.r 3 == 0xFFFF8899#32,
    -- lha r3,6(r4)
    after (withM (withR ({ start with msr := 0x00002003#32 }) [(4, 0x00001000#32)]) 0x00001000#32 [0x11, 0x22, 0x33,
      0x44, 0x88, 0x99, 0xAA, 0xBB]) 0xA8640006#32 fun t =>
      t.r 3 == 0x00001122#32,
    -- lwz r3,0x1000(r0)
    after (withM (withM (withR start [(0, 0x55555555#32)]) 0x00001000#32 [0x11, 0x22, 0x33, 0x44]) 0x00001004#32 [0x88,
      0x99, 0xAA, 0xBB]) 0x80601000#32 fun t =>
      t.r 3 == 0x11223344#32,
    -- lwz r3,4(r4)
    after (withM (withR ({ start with msr := 0x00002003#32 }) [(4, 0x00001000#32)]) 0x00001000#32 [0x11, 0x22, 0x33,
      0x44, 0x88, 0x99, 0xAA, 0xBB]) 0x80640004#32 fun t =>
      t.r 3 == 0x11223344#32] = true := by decide

/-- Vectors V45 of 95_test_vectors.md. -/
theorem test_integer_load_store_2 :
  allOf [
    -- lwzu r3,4(r4)
    after (withM (withM (withR start [(4, 0x00001000#32)]) 0x00001000#32 [0x11, 0x22, 0x33, 0x44]) 0x00001004#32 [0x88,
      0x99, 0xAA, 0xBB]) 0x84640004#32 fun t =>
      t.r 3 == 0x8899AABB#32 && t.r 4 == 0x00001004#32,
    -- lwzu r3,0x1004(r0)
    after (withM (withM (withR start [(0, 0x55555555#32)]) 0x00001000#32 [0x11, 0x22, 0x33, 0x44]) 0x00001004#32 [0x88,
      0x99, 0xAA, 0xBB]) 0x84601004#32 fun t =>
      t.r 3 == 0x8899AABB#32 && t.r 0 == 0x00001004#32,
    -- lwzux r3,r4,r5
    after (withM (withM (withR start [(4, 0x00001000#32), (5, 0x00000004#32)]) 0x00001000#32 [0x11, 0x22, 0x33,
      0x44]) 0x00001004#32 [0x88, 0x99, 0xAA, 0xBB]) 0x7C64286E#32 fun t =>
      t.r 3 == 0x8899AABB#32 && t.r 4 == 0x00001004#32,
    -- lhbrx r3,r4,r5
    after (withM (withM (withR start [(4, 0x00001000#32), (5, 0x00000000#32)]) 0x00001000#32 [0x11, 0x22, 0x33,
      0x44]) 0x00001004#32 [0x88, 0x99, 0xAA, 0xBB]) 0x7C642E2C#32 fun t =>
      t.r 3 == 0x00002211#32,
    -- lwbrx r3,r4,r5
    after (withM (withM (withR start [(4, 0x00001000#32), (5, 0x00000000#32)]) 0x00001000#32 [0x11, 0x22, 0x33,
      0x44]) 0x00001004#32 [0x88, 0x99, 0xAA, 0xBB]) 0x7C642C2C#32 fun t =>
      t.r 3 == 0x44332211#32,
    -- stb r3,0(r4)
    after (withM (withM (withR start [(3, 0xAABBCCDD#32), (4, 0x00001000#32)]) 0x00001000#32 [0x11, 0x22, 0x33,
      0x44]) 0x00001004#32 [0x88, 0x99, 0xAA, 0xBB]) 0x98640000#32 fun t =>
      t.bytesAt 4096 4 == [221, 34, 51, 68],
    -- stb r3,7(r4) with r3 = 0x0000_00EE
    after (withM (withR ({ start with msr := 0x00002003#32 }) [(4, 0x00001000#32), (3,
      0x000000EE#32)]) 0x00001000#32 [0x11, 0x22, 0x33, 0x44, 0x88, 0x99, 0xAA, 0xBB]) 0x98640007#32 fun t =>
      t.bytesAt 4096 1 == [238],
    -- sth r3,2(r4)
    after (withM (withM (withR start [(3, 0xAABBCCDD#32), (4, 0x00001000#32)]) 0x00001000#32 [0x11, 0x22, 0x33,
      0x44]) 0x00001004#32 [0x88, 0x99, 0xAA, 0xBB]) 0xB0640002#32 fun t =>
      t.bytesAt 4096 4 == [17, 34, 204, 221]] = true := by decide

/-- Vectors V45 of 95_test_vectors.md. -/
theorem test_integer_load_store_3 :
  allOf [
    -- stw r3,2(r4)
    after (withM (withM (withR start [(3, 0xAABBCCDD#32), (4, 0x00001000#32)]) 0x00001000#32 [0x11, 0x22, 0x33,
      0x44]) 0x00001004#32 [0x88, 0x99, 0xAA, 0xBB]) 0x90640002#32 fun t =>
      t.bytesAt 4096 8 == [17, 34, 170, 187, 204, 221, 170, 187],
    -- stw r3,0(r4) with r3 = 0xCAFE_BABE
    after (withM (withR ({ start with msr := 0x00002003#32 }) [(4, 0x00001000#32), (3,
      0xCAFEBABE#32)]) 0x00001000#32 [0x11, 0x22, 0x33, 0x44, 0x88, 0x99, 0xAA, 0xBB]) 0x90640000#32 fun t =>
      t.bytesAt 4100 4 == [202, 254, 186, 190],
    -- stwu r1,-16(r1)
    after (withR start [(1, 0x00008000#32)]) 0x9421FFF0#32 fun t =>
      t.r 1 == 0x00007FF0#32 && t.bytesAt 32752 4 == [0, 0, 128, 0],
    -- stwbrx r3,r4,r5
    after (withR start [(3, 0xAABBCCDD#32), (4, 0x00001000#32), (5, 0x00000000#32)]) 0x7C642D2C#32 fun t =>
      t.bytesAt 4096 4 == [221, 204, 187, 170],
    -- sthbrx r3,r4,r5
    after (withR start [(3, 0xAABBCCDD#32), (4, 0x00001000#32), (5, 0x00000000#32)]) 0x7C642F2C#32 fun t =>
      t.bytesAt 4096 2 == [221, 204],
    -- stwx r3,r4,r5
    after (withR start [(3, 0x00000001#32), (4, 0xFFFFFFFE#32), (5, 0x00000000#32)]) 0x7C64292E#32 fun t =>
      t.bytesAt 4294967294 4 == [0, 0, 0, 1] && t.bytesAt 0 2 == [0, 1],
    -- lmw r30,0(r4)
    after (withM (withR ({ start with msr := 0x00002003#32 }) [(4, 0x00001000#32)]) 0x00001000#32 [0x11, 0x22, 0x33,
      0x44, 0x88, 0x99, 0xAA, 0xBB]) 0xBBC40000#32 fun t =>
      t.dar == 0x00001000#32 && t.pc == 0x600] = true := by decide

/-- Vectors V46 of 95_test_vectors.md. -/
theorem test_multiple_string_1 :
  allOf [
    -- lmw r30,0(r3)
    after (withM (withM (withM (withR start [(3, 0x00009000#32)]) 0x00009000#32 [0x41, 0x42, 0x43,
      0x44]) 0x00009004#32 [0x45, 0x46, 0x47, 0x48]) 0x00009008#32 [0x49, 0x4A, 0x4B, 0x4C]) 0xBBC30000#32 fun t =>
      t.r 30 == 0x41424344#32 && t.r 31 == 0x45464748#32,
    -- lmw r30,0(r31)
    after (withM (withM (withM (withR start [(31, 0x00009000#32)]) 0x00009000#32 [0x41, 0x42, 0x43,
      0x44]) 0x00009004#32 [0x45, 0x46, 0x47, 0x48]) 0x00009008#32 [0x49, 0x4A, 0x4B, 0x4C]) 0xBBDF0000#32 fun t =>
      t.r 30 == 0x41424344#32 && t.r 31 == 0x45464748#32,
    -- lswi r5,r3,5
    after (withM (withM (withM (withR start [(3, 0x00009000#32), (5, 0xFFFFFFFF#32), (6,
      0xFFFFFFFF#32)]) 0x00009000#32 [0x41, 0x42, 0x43, 0x44]) 0x00009004#32 [0x45, 0x46, 0x47,
      0x48]) 0x00009008#32 [0x49, 0x4A, 0x4B, 0x4C]) 0x7CA32CAA#32 fun t =>
      t.r 5 == 0x41424344#32 && t.r 6 == 0x45000000#32,
    -- lswi r31,r3,6
    after (withM (withM (withM (withR start [(3, 0x00009000#32)]) 0x00009000#32 [0x41, 0x42, 0x43,
      0x44]) 0x00009004#32 [0x45, 0x46, 0x47, 0x48]) 0x00009008#32 [0x49, 0x4A, 0x4B, 0x4C]) 0x7FE334AA#32 fun t =>
      t.r 31 == 0x41424344#32 && t.r 0 == 0x45460000#32,
    -- stswi r5,r3,3
    after (withM (withR start [(3, 0x0000A000#32), (5, 0xDDCCBBAA#32)]) 0x0000A000#32 [0x11, 0x11, 0x11,
      0x11]) 0x7CA31DAA#32 fun t =>
      t.bytesAt 40960 4 == [221, 204, 187, 17]] = true := by decide

/-- Vectors V43 of 95_test_vectors.md. -/
theorem test_fp_arith_1 :
  allOf [
    -- fadd f1,f2,f3
    after (withF start [(2, 0x3FB999999999999A#64), (3, 0x3FC999999999999A#64)]) 0xFC22182A#32 fun t =>
      t.f 1 == 0x3FD3333333333334#64 && t.fpscr == 0x82064000#32,
    -- fadd f1,f2,f3
    after (withF start [(2, 0x7FF0000000000000#64), (3, 0xFFF0000000000000#64)]) 0xFC22182A#32 fun t =>
      t.f 1 == 0x7FF8000000000000#64 && t.fpscr == 0xA0811000#32,
    -- fsub f1,f2,f3
    after (withF start [(2, 0x7FF0000000000001#64), (3, 0x3FF0000000000000#64)]) 0xFC221828#32 fun t =>
      t.f 1 == 0x7FF8000000000001#64 && t.fpscr == 0xA1011000#32,
    -- fsub f1,f2,f3
    after (withF start [(2, 0x3FF0000000000000#64), (3, 0xFFF8000000000123#64)]) 0xFC221828#32 fun t =>
      t.f 1 == 0xFFF8000000000123#64 && t.fpscr == 0x00011000#32,
    -- fmul f1,f2,f3
    after (withF start [(2, 0x3FB999999999999A#64), (3, 0x3FC999999999999A#64)]) 0xFC2200F2#32 fun t =>
      t.f 1 == 0x3F947AE147AE147C#64 && t.fpscr == 0x82064000#32,
    -- fmul f1,f2,f3
    after (withF start [(2, 0x7FF0000000000000#64), (3, 0x8000000000000000#64)]) 0xFC2200F2#32 fun t =>
      t.f 1 == 0x7FF8000000000000#64 && t.fpscr == 0xA0111000#32,
    -- fdiv f1,f2,f3
    after (withF ({ start with fpscr := 0x00000003#32 }) [(2, 0xBFF0000000000000#64), (3,
      0x4008000000000000#64)]) 0xFC221824#32 fun t =>
      t.f 1 == 0xBFD5555555555556#64 && t.fpscr == 0x82068003#32,
    -- fdiv f1,f2,f3
    after (withF ({ start with fpscr := 0x00000010#32 }) [(2, 0xBFF0000000000000#64), (3,
      0x0000000000000000#64)]) 0xFC221824#32 fun t =>
      t.f 1 == 0 && t.fpscr == 0xC4000010#32] = true := by decide

/-- Vectors V43 of 95_test_vectors.md. -/
theorem test_fp_arith_2 :
  allOf [
    -- fdivs f1,f2,f3
    after (withF start [(2, 0x3FF0000000000000#64), (3, 0x4008000000000000#64)]) 0xEC221824#32 fun t =>
      t.f 1 == 0x3FD5555560000000#64 && t.fpscr == 0x82064000#32,
    -- fdivs f1,f2,f3
    after (withF ({ start with fpscr := 0x00000001#32 }) [(2, 0x3FF0000000000000#64), (3,
      0x4008000000000000#64)]) 0xEC221824#32 fun t =>
      t.f 1 == 0x3FD5555540000000#64 && t.fpscr == 0x82024001#32,
    -- fadds f1,f2,f3
    after (withF start [(2, 0x3FB99999A0000000#64), (3, 0x3FC99999A0000000#64)]) 0xEC22182A#32 fun t =>
      t.f 1 == 0x3FD3333340000000#64 && t.fpscr == 0x82064000#32,
    -- fmadd f1,f2,f3,f4
    after (withF start [(2, 0x4000000000000000#64), (3, 0x4008000000000000#64), (4,
      0x3FF0000000000000#64)]) 0xFC2220FA#32 fun t =>
      t.f 1 == 0x401C000000000000#64 && t.fpscr == 0x00004000#32,
    -- fnmadd f1,f2,f3,f4
    after (withF start [(2, 0x4000000000000000#64), (3, 0x4008000000000000#64), (4,
      0x3FF0000000000000#64)]) 0xFC2220FE#32 fun t =>
      t.f 1 == 0xC01C000000000000#64 && t.fpscr == 0x00008000#32,
    -- fnmadd f1,f2,f3,f4
    after (withF start [(2, 0x3FF0000000000000#64), (3, 0x3FF0000000000000#64), (4,
      0xBFF0000000000000#64)]) 0xFC2220FE#32 fun t =>
      t.f 1 == 0x8000000000000000#64 && t.fpscr == 0x00012000#32,
    -- fmsub f1,f2,f3,f4
    after (withF start [(2, 0x3FF0000000400000#64), (3, 0x3FF0000000400000#64), (4,
      0x3FF0000000800000#64)]) 0xFC2220F8#32 fun t =>
      t.f 1 == 0x3C30000000000000#64 && t.fpscr == 0x00004000#32,
    -- fnmsub f1,f2,f3,f4
    after (withF start [(2, 0x3FF0000000400000#64), (3, 0x3FF0000000400000#64), (4,
      0x3FF0000000800000#64)]) 0xFC2220FC#32 fun t =>
      t.f 1 == 0xBC30000000000000#64 && t.fpscr == 0x00008000#32] = true := by decide

/-- Vectors V44 of 95_test_vectors.md. -/
theorem test_fp_convert_fpscr_1 :
  allOf [
    -- frsp f1,f2
    after (withF ({ start with fpscr := 0x00000002#32 }) [(2, 0x3FF0000010000000#64)]) 0xFC201018#32 fun t =>
      t.f 1 == 0x3FF0000020000000#64 && t.fpscr == 0x82064002#32,
    -- frsp f1,f2
    after (withF start [(2, 0xBFF0000010000001#64)]) 0xFC201018#32 fun t =>
      t.f 1 == 0xBFF0000020000000#64 && t.fpscr == 0x82068000#32,
    -- fcmpu cr2,f1,f2
    after (withF start [(1, 0x3FF0000000000000#64), (2, 0x4000000000000000#64)]) 0xFD011000#32 fun t =>
      t.cr == 0x00800000#32 && t.fpscr == 0x00008000#32,
    -- fcmpu cr2,f1,f2
    after (withF start [(1, 0x7FF0000000000001#64), (2, 0x3FF0000000000000#64)]) 0xFD011000#32 fun t =>
      t.cr == 0x00100000#32 && t.fpscr == 0xA1001000#32,
    -- fcmpo cr2,f1,f2
    after (withF start [(1, 0x7FF8000000000000#64), (2, 0x3FF0000000000000#64)]) 0xFD011040#32 fun t =>
      t.cr == 0x00100000#32 && t.fpscr == 0xA0081000#32,
    -- fcmpo cr2,f1,f2
    after (withF start [(1, 0x7FF0000000000001#64), (2, 0x3FF0000000000000#64)]) 0xFD011040#32 fun t =>
      t.cr == 0x00100000#32 && t.fpscr == 0xA1081000#32,
    -- mcrfs cr2,1
    after ({ start with fpscr := 0x82000000#32 }) 0xFD040080#32 fun t =>
      t.cr == 0x00200000#32 && t.fpscr == 0x80000000#32,
    -- mcrfs cr0,0
    after ({ start with fpscr := 0x92000000#32 }) 0xFC000080#32 fun t =>
      t.cr == 0x90000000#32 && t.fpscr == 0x02000000#32] = true := by decide

/-- Vectors V44 of 95_test_vectors.md. -/
theorem test_fp_convert_fpscr_2 :
  allOf [
    -- mtfsf 0xFF,f2
    after (withF start [(2, 0x00000000000000F8#64)]) 0xFDFE158E#32 fun t =>
      t.fpscr == 0x000000F8#32,
    -- mtfsf 0xFF,f2
    after (withF start [(2, 0x00000000FFFFFFFF#64)]) 0xFDFE158E#32 fun t =>
      t.fpscr == 0xFFFFF7FF#32,
    -- mtfsb1 3
    after ({ start with fpscr := 0x00000040#32 }) 0xFC60004C#32 fun t =>
      t.fpscr == 0xD0000040#32,
    -- mtfsb0 30
    after ({ start with fpscr := 0x00000003#32 }) 0xFFC0008C#32 fun t =>
      t.fpscr == 1#32,
    -- mtfsfi 7,1
    after ({ start with fpscr := 0x0000000F#32 }) 0xFF80110C#32 fun t =>
      t.fpscr == 1#32] = true := by decide

/-- Vectors V47 of 95_test_vectors.md. -/
theorem test_fp_load_store_1 :
  allOf [
    -- lfs f1,0(r3)
    after (withM (withR start [(3, 0x00001000#32)]) 0x00001000#32 [0x40, 0x49, 0x0F, 0xDB]) 0xC0230000#32 fun t =>
      t.f 1 == 0x400921FB60000000#64,
    -- lfs f1,0(r3)
    after (withM (withR start [(3, 0x00001000#32)]) 0x00001000#32 [0x00, 0x00, 0x00, 0x01]) 0xC0230000#32 fun t =>
      t.srr0 == 0x00000100#32 && t.f 1 == 0 && t.pc == 0xE00,
    -- lfd f2,16(r3)
    after (withM (withR start [(3, 0x00002000#32)]) 0x00002010#32 [0x40, 0x09, 0x21, 0xFB, 0x54, 0x44, 0x2D,
      0x18]) 0xC8430010#32 fun t =>
      t.f 2 == 0x400921FB54442D18#64,
    -- lfd f2,0(r3)
    after (withR start [(3, 0x00002002#32)]) 0xC8430000#32 fun t =>
      t.dar == 0x00002002#32 && t.pc == 0x600,
    -- stfs f1,8(r3)
    after (withR (withF start [(1, 0x400921FB60000000#64)]) [(3, 0x00001000#32)]) 0xD0230008#32 fun t =>
      t.bytesAt 4104 4 == [64, 73, 15, 219],
    -- stfs f1,8(r3)
    after (withR (withF start [(1, 0x0000000000000001#64)]) [(3, 0x00001000#32)]) 0xD0230008#32 fun t =>
      t.bytesAt 4104 4 == [0, 0, 0, 0],
    -- stfd f2,-8(r1)
    after (withR (withF start [(2, 0x0123456789ABCDEF#64)]) [(1, 0x00003000#32)]) 0xD841FFF8#32 fun t =>
      t.bytesAt 12280 8 == [1, 35, 69, 103, 137, 171, 205, 239],
    -- stfiwx f1,r3,r4
    after (withR (withF start [(1, 0xAAAAAAAA12345678#64)]) [(3, 0x00001000#32), (4, 0x00000004#32)]) 0x7C2327AE#32 fun t =>
      t.bytesAt 4100 4 == [18, 52, 86, 120]] = true := by decide

/-- Vectors V47 of 95_test_vectors.md. -/
theorem test_fp_load_store_2 :
  allOf [
    -- fmr f1,f2
    after (withF start [(2, 0x7FF0000000000001#64)]) 0xFC201090#32 fun t =>
      t.f 1 == 0x7FF0000000000001#64,
    -- fmr. f1,f2
    after ({ start with fpscr := 0xA1000000#32 }) 0xFC201091#32 fun t =>
      bits t.cr 4 4 == 10#4,
    -- fneg f1,f2
    after (withF start [(2, 0x0000000000000000#64)]) 0xFC201050#32 fun t =>
      t.f 1 == 0x8000000000000000#64,
    -- fabs f1,f2
    after (withF start [(2, 0xFFF8000000000000#64)]) 0xFC201210#32 fun t =>
      t.f 1 == 0x7FF8000000000000#64,
    -- fnabs f1,f2
    after (withF start [(2, 0x3FF0000000000000#64)]) 0xFC201110#32 fun t =>
      t.f 1 == 0xBFF0000000000000#64] = true := by decide

/-- Vectors V48 of 95_test_vectors.md. -/
theorem test_branch_cr_trap_1 :
  allOf [
    -- bla 0xFFFF_FFF0
    after (start) 0x4BFFFFF3#32 fun t =>
      t.lr == 0x00000104#32 && t.pc == 0xFFFFFFF0#32,
    -- bl .-0x100
    after (start) 0x4BFFFF01#32 fun t =>
      t.lr == 0x00000104#32 && t.pc == 0#32,
    -- bc 18,0,.+8
    after ({ start with ctr := 0x00000001#32 }) 0x42400008#32 fun t =>
      t.ctr == 0#32 && t.pc == 0x00000108#32,
    -- bc 8,1,.+8
    after ({ start with cr := 0x40000000#32, ctr := 0x00000005#32 }) 0x41010008#32 fun t =>
      t.ctr == 4#32 && t.pc == 0x00000108#32,
    -- bclr 20,0
    after ({ start with lr := 0x00002003#32 }) 0x4E800020#32 fun t =>
      t.pc == 0x00002000#32,
    -- bclrl 20,0
    after ({ start with lr := 0x00002000#32 }) 0x4E800021#32 fun t =>
      t.lr == 0x00000104#32 && t.pc == 0x00002000#32,
    -- bcctr 20,0
    after ({ start with ctr := 0x00003002#32 }) 0x4E800420#32 fun t =>
      t.ctr == 0x00003002#32 && t.pc == 0x00003000#32,
    -- bcctrl 4,2
    after ({ start with cr := 0x20000000#32, ctr := 0x00003000#32 }) 0x4C820421#32 fun t =>
      t.lr == 0x00000104#32 && t.pc == 0x00000104#32] = true := by decide

/-- Vectors V48 of 95_test_vectors.md. -/
theorem test_branch_cr_trap_2 :
  allOf [
    -- crand 0,1,2
    after ({ start with cr := 0x60000000#32 }) 0x4C011202#32 fun t =>
      t.cr == 0xE0000000#32,
    -- cror 31,0,1
    after ({ start with cr := 0x40000000#32 }) 0x4FE00B82#32 fun t =>
      t.cr == 0x40000001#32,
    -- crxor 6,6,6
    after ({ start with cr := 0xFFFFFFFF#32 }) 0x4CC63182#32 fun t =>
      t.cr == 0xFDFFFFFF#32,
    -- creqv 6,6,6
    after ({ start with cr := 0x00000000#32 }) 0x4CC63242#32 fun t =>
      t.cr == 0x02000000#32,
    -- crnand 0,0,0
    after ({ start with cr := 0x80000000#32 }) 0x4C0001C2#32 fun t =>
      t.cr == 0#32,
    -- crnor 0,1,2
    after ({ start with cr := 0x00000000#32 }) 0x4C011042#32 fun t =>
      t.cr == 0x80000000#32,
    -- crandc 0,1,2
    after ({ start with cr := 0x40000000#32 }) 0x4C011102#32 fun t =>
      t.cr == 0xC0000000#32,
    -- crorc 0,1,2
    after ({ start with cr := 0x00000000#32 }) 0x4C011342#32 fun t =>
      t.cr == 0x80000000#32] = true := by decide

/-- Vectors V48 of 95_test_vectors.md. -/
theorem test_branch_cr_trap_3 :
  allOf [
    -- mcrf cr0,cr7
    after ({ start with cr := 0x0000000A#32 }) 0x4C1C0000#32 fun t =>
      t.cr == 0xA000000A#32,
    -- tw 31,r0,r0
    after (start) 0x7FE00008#32 fun t =>
      t.pc == 0x700 && bits t.srr1 0 16 == 2,
    -- tw 4,r3,r4 (tweq)
    after (withR start [(4, 0x00000007#32), (3, 0x00000007#32)]) 0x7C832008#32 fun t =>
      t.pc == 0x700 && bits t.srr1 0 16 == 2,
    -- twi 8,r3,-1 (twgti)
    after (withR start [(3, 0x00000000#32)]) 0x0D03FFFF#32 fun t =>
      t.pc == 0x700 && bits t.srr1 0 16 == 2,
    -- twi 1,r3,-1 (twlgti)
    after (withR start [(3, 0x00000000#32)]) 0x0C23FFFF#32 fun t =>
      t.pc == 0x104] = true := by decide

/-- Vectors V49 of 95_test_vectors.md. -/
theorem test_control_1 :
  allOf [
    -- mtcrf 0x81,r3
    after (withR ({ start with cr := 0xFFFFFFFF#32 }) [(3, 0x12345678#32)]) 0x7C681120#32 fun t =>
      t.cr == 0x1FFFFFF8#32,
    -- mfcr r3
    after ({ start with cr := 0x2468ACE0#32 }) 0x7C600026#32 fun t =>
      t.r 3 == 0x2468ACE0#32,
    -- mcrxr cr1
    after ({ start with cr := 0x00000000#32, xer := 0xE0000045#32 }) 0x7C800400#32 fun t =>
      t.cr == 0x0E000000#32 && t.xer == 0x00000045#32,
    -- mtspr 9,r3
    after (withR start [(3, 0x12345678#32)]) 0x7C6903A6#32 fun t =>
      t.ctr == 0x12345678#32,
    -- mtmsr r3
    after (withR start [(3, 0xFFFE10BE#32)]) 0x7C600124#32 fun t =>
      t.msr == 0x00001002#32,
    -- mtmsr r3
    after ({ start with msr := 0x00004002#32 }) 0x7C600124#32 fun t =>
      t.pc == 0x700 && bits t.srr1 0 16 == 4,
    -- mfmsr r3
    after ({ start with msr := 0x00002002#32 }) 0x7C6000A6#32 fun t =>
      t.r 3 == 0x00002002#32,
    -- lwarx r5,0,r3
    after (withM (withR start [(3, 0x00002000#32)]) 0x00002000#32 [0x00, 0x00, 0x00, 0x01]) 0x7CA01828#32 fun t =>
      t.r 5 == 1#32 && t.reservation.isSome] = true := by decide

/-- Vectors V49 of 95_test_vectors.md. -/
theorem test_control_2 :
  allOf [
    -- lwarx r5,0,r3
    after (withR start [(3, 0x00006002#32)]) 0x7CA01828#32 fun t =>
      t.dar == 0x00006002#32 && t.pc == 0x600 && t.reservation.isNone,
    -- stwcx. r5,0,r3
    after (withR ({ start with reservation := some 5 }) [(5, 0x00000002#32), (3, 0x00002000#32)]) 0x7CA0192D#32 fun t =>
      bits t.cr 0 4 == 2#4 && t.bytesAt 8192 4 == [0, 0, 0, 2] && t.reservation.isNone,
    -- stwcx. r5,0,r3
    after (withR ({ start with reservation := some 5 }) [(3, 0x00002000#32)]) 0x7CA0192D#32 fun t =>
      bits t.cr 0 4 == 2#4 && t.reservation.isNone] = true := by decide

/-! Witnesses: for each statement with hypotheses, states and operands that meet all of them, at the bounds of each clause. -/

/-- A machine with floating-point available. -/
def fpOn (l : List (Reg × Dword)) : State := withF start l
/-- Little-endian mode. -/
def little : State := { start with msr := 0x00002003#32 }
/-- User level. -/
def userLevel : State := { start with msr := 0x00006002#32 }

theorem witness_DecodeInvertsEncode :
  (Instr.bcctr 0b10100#5 31 true).wellFormed = true ∧ (Instr.lswx 31 0 0).wellFormed = true := by decide

theorem witness_UnusedOpcodesAreRejected :
  ((bits 0x03FFFFFF#32 0 6).toNat ∈ [0, 1, 2, 4, 5, 6, 9, 22, 30, 56, 57, 58, 60, 61, 62]) ∧
  ((bits 0xFBFFFFFF#32 0 6).toNat ∈ [0, 1, 2, 4, 5, 6, 9, 22, 30, 56, 57, 58, 60, 61, 62]) ∧
  ((bits 0x44000000#32 0 6).toNat = 17 ∧ bit 0x44000000#32 30 = false) ∧
  ((bits 0x7CA0192C#32 0 6).toNat = 31 ∧ (bits 0x7CA0192C#32 21 10).toNat = 150 ∧ bit 0x7CA0192C#32 31 = false) := by decide

/-- A valid instruction that completes, one that takes an exception before any effect, and one that is refused. -/
theorem witness_StepRunsDecodedInstruction :
  (let s := State.reset.withFetchWord 32 0x38600064
   s.quiet ∧ s.fetchesWord 0x38600064#32 ∧ decode 0x38600064#32 = .ok (.addi 3 0 100) ∧
     s.intrusions = [] ∧ ∃ t, exec (.addi 3 0 100) s.fresh = .next t ∧ bit t.lctrl2 0 = false ∧ bit t.lctrl2 10 = false) ∧
  (let s := State.reset.withFetchWord 32 0x7FE00008
   s.quiet ∧ s.fetchesWord 0x7FE00008#32 ∧ decode 0x7FE00008#32 = .ok (.tw 31 0 0) ∧
     ∃ t, exec (.tw 31 0 0) s.fresh = .next t ∧ bit t.lctrl2 0 = false ∧ bit t.lctrl2 10 = false ∧
       t.excTaken = some .before) ∧
  (let s := State.reset.withFetchWord 32 0x4C000420
   s.quiet ∧ s.fetchesWord 0x4C000420#32 ∧ decode 0x4C000420#32 = .ok (.bcctr 0 0 false) ∧
     exec (.bcctr 0 0 false) s.fresh = .refused .invalidCountBranch) := by
  refine ⟨⟨?_, ?_, by decide, by decide, _, rfl, by decide, by decide⟩, ⟨?_, ?_, by decide, _, rfl, by decide, by decide, by decide⟩,
    ⟨?_, ?_, by decide, rfl⟩⟩ <;> first | (unfold State.quiet State.undisturbed; decide) | (unfold State.fetchesWord; decide)

theorem witness_RejectedWordTakesEmulation :
  State.reset.quiet ∧ State.reset.fetchesWord 0 ∧ decode 0 = .error .unusedPrimary := by
  refine ⟨?_, ?_, by decide⟩
  · unfold State.quiet State.undisturbed; decide
  · unfold State.fetchesWord; decide

/-- The state `s` with the word `w` placed, where the next step fetches it. -/
def placed (s : State) (w : Word) : State := s.withFetchWord 32 w.toNat

/-- The clause on what follows an instruction, and the step with SE and with BE. -/
theorem witness_SingleStepTraces :
  (let s := { start with msr := 0x00002402#32 }
   let u := s.advance
   u.inDebug = false ∧ msrSE s.msr = true ∧ Instr.sync ≠ .rfi ∧ u.excTaken = none ∧ bit u.lctrl2 0 = false ∧
     bit u.lctrl2 10 = false) ∧
  (let s := placed { start with msr := 0x00002402#32 } 0x38600064#32
   s.undisturbed ∧ s.noInstrBreakpoint ∧ s.fetchesWord 0x38600064#32 ∧ decode 0x38600064#32 = .ok (.addi 3 0 100) ∧
     (∃ t, exec (.addi 3 0 100) s.fresh = .next t ∧ t.excTaken = none ∧ t.inDebug = false ∧ t.intrusions = [] ∧
       bit t.lctrl2 0 = false ∧ bit t.lctrl2 10 = false) ∧ msrSE s.msr = true ∧ Instr.addi 3 0 100 ≠ .rfi) ∧
  (let s := placed { start with msr := 0x00002202#32 } 0x48000008#32
   s.undisturbed ∧ s.noInstrBreakpoint ∧ s.fetchesWord 0x48000008#32 ∧ decode 0x48000008#32 = .ok (.b 2 false false) ∧
     (∃ t, exec (.b 2 false false) s.fresh = .next t ∧ t.excTaken = none ∧ t.inDebug = false ∧ t.intrusions = [] ∧
       bit t.lctrl2 0 = false ∧ bit t.lctrl2 10 = false) ∧ msrBE s.msr = true ∧ branches (.b 2 false false)) := by
  refine ⟨by decide, ⟨?_, ?_, ?_, by decide, ⟨_, rfl, by decide, by decide, by decide, by decide, by decide⟩, by decide, by decide⟩,
    ⟨?_, ?_, ?_, by decide, ⟨_, rfl, by decide, by decide, by decide, by decide, by decide⟩, by decide, .inl ⟨_, _, _, rfl⟩⟩⟩ <;>
    first | (unfold State.undisturbed; decide) | (unfold State.noInstrBreakpoint; decide) | (unfold State.fetchesWord; decide)

/-- `addi r3,0,100` at the reset vector, with IW0 watching for it by comparator A; ICTRL, the counters and MSR[RI] as given. -/
def watched (ictrl countA : Word) : State :=
  placed { start with ictrl := ictrl, cmpA := 0x100#32, countA := countA } 0x38600064#32

theorem watches_zero (ictrl countA : Word) (h : bits ictrl 0 3 = 4#3 ∧ bits ictrl 12 2 = 2#2) :
    (watched ictrl countA).watchesInstr 0 := .inl ⟨h.2, .inl ⟨h.1, rfl⟩⟩

/-- A trap-enabled watchpoint; a counter that expires; a match that is ignored; a counter that does not expire, with the instruction
completing and with one that takes an exception of class Before. -/
theorem witness_InstructionBreakpointResult :
  (let s := watched 0x80080800#32 0
   s.undisturbed ∧ s.fetchesWord 0x38600064#32 ∧ s.matchesInstr ∧ bit s.ictrl 28 = false) ∧
  (let s := watched 0x80080000#32 0x00010001#32
   s.undisturbed ∧ s.fetchesWord 0x38600064#32 ∧ s.counts s.countA 1#2 (s.watchesInstr 0) ∧ bits s.countA 0 16 = 1#16) ∧
  (let s := watched 0x80080808#32 0x00020001#32
   let m := { s.fresh with ictrl := 0x80080800#32, countA := 0x00010001#32 }
   s.undisturbed ∧ s.fetchesWord 0x38600064#32 ∧ s.matchesInstr ∧ bit s.ictrl 28 = true ∧
     s.counts s.countA 1#2 (s.watchesInstr 0) ∧ bits s.countA 0 16 ≠ 1#16 ∧ bits s.countB 30 2 ≠ 1#2 ∧
     m.ictrl = setBit s.ictrl 28 false ∧ m.countA = s.countA - 0x00010000#32 ∧
     ∃ t, exec (.addi 3 0 100) m = .next t ∧ bit t.lctrl2 0 = false ∧ bit t.lctrl2 10 = false ∧ t.intrusions = [] ∧
       msrSE s.msr = false ∧ msrBE s.msr = false) ∧
  (let s := placed start 0x7FE00008#32
   s.undisturbed ∧ s.fetchesWord 0x7FE00008#32 ∧ ¬s.matchesInstr ∧ bits s.countA 30 2 ≠ 1#2 ∧ bits s.countB 30 2 ≠ 1#2 ∧
     ∃ t, exec (.tw 31 0 0) s.fresh = .next t ∧ bit t.lctrl2 0 = false ∧ bit t.lctrl2 10 = false ∧ t.intrusions = [] ∧
       t.excTaken = some .before) := by
  refine ⟨⟨?_, ?_, ⟨.inr (by decide), 0, by decide, watches_zero _ _ (by decide), .inl (by decide)⟩, by decide⟩,
    ⟨?_, ?_, ⟨by decide, watches_zero _ _ (by decide), .inr (by decide), by decide⟩, by decide⟩,
    ⟨?_, ?_, ⟨.inr (by decide), 0, by decide, watches_zero _ _ (by decide), .inl (by decide)⟩, by decide,
      ⟨by decide, watches_zero _ _ (by decide), .inr (by decide), by decide⟩, by decide, by decide, by decide, by decide,
      _, rfl, by decide, by decide, by decide, by decide, by decide⟩,
    ⟨?_, ?_, ?_, by decide, by decide, _, rfl, by decide, by decide, by decide, by decide⟩⟩ <;>
    first
    | (unfold State.undisturbed; decide)
    | (unfold State.fetchesWord; decide)
    | (rintro ⟨-, k, hk, -, h | h⟩ <;> interval_cases k <;> revert h <;> decide)

/-- `stw r3,0x200(0)`, whose only cycle the data watchpoint LW0 sees; LCTRL2 and counter A as given. -/
def stored (lctrl2 countA : Word) : State :=
  placed { start with lctrl2 := lctrl2, countA := countA } 0x90600200#32

/-- The cycle of that store. -/
def storeCycle : BusCycle :=
  { ea := 0x200#32, addr := 0x200#32, size := 4, write := true, data := 0, compares := true }

theorem storeCycle_watched (lctrl2 : Word) (t : State) (iw : Nat → Prop) (h : t.lctrl2 = lctrl2)
    (hl : lctrl2 = 0x80000008#32 ∨ lctrl2 = 0x80000000#32) : t.watchesData iw 0 storeCycle := by
  unfold State.watchesData
  rw [h]
  rcases hl with hl | hl <;> subst hl <;>
    exact ⟨by decide, fun h => absurd h (by decide), fun h => absurd h (by decide), fun h => absurd h (by decide)⟩

/-- A trap-enabled watchpoint; a counter that expires; and no watchpoint. -/
theorem witness_DataBreakpointResult :
  (let s := stored 0x80000008#32 0
   s.undisturbed ∧ s.noInstrBreakpoint ∧ s.fetchesWord 0x90600200#32 ∧ decode 0x90600200#32 = .ok (.stw 3 0x200 0) ∧
     ∃ t, exec (.stw 3 0x200 0) s.fresh = .next t ∧ t.excTaken = none ∧ t.inDebug = false ∧ t.intrusions = [] ∧
       t.lbus = [] ++ storeCycle :: [] ∧ t.watchesData s.watchesInstr 0 storeCycle ∧ t.breaksData t.countA 0) ∧
  (let s := stored 0x80000000#32 0x00010002#32
   s.undisturbed ∧ s.noInstrBreakpoint ∧ s.fetchesWord 0x90600200#32 ∧
     ∃ t, exec (.stw 3 0x200 0) s.fresh = .next t ∧ t.excTaken = none ∧ t.lbus = [] ++ storeCycle :: [] ∧
       t.watchesData s.watchesInstr 0 storeCycle ∧ t.breaksData t.countA 0 ∧
       t.counts t.countA 2#2 (∃ c ∈ t.lbus, t.watchesData s.watchesInstr 0 c)) ∧
  (let s := stored 0x80000000#32 0x00020002#32
   s.undisturbed ∧ s.noInstrBreakpoint ∧ s.fetchesWord 0x90600200#32 ∧
     ∃ t, exec (.stw 3 0x200 0) s.fresh = .next t ∧ t.excTaken = none ∧ ¬t.breaksData t.countA 0 ∧
       ¬t.breaksData t.countB 1 ∧ msrSE s.msr = false ∧ msrBE s.msr = false) := by
  refine ⟨⟨?_, ?_, ?_, by decide, _, rfl, by decide, by decide, by decide, by decide,
      storeCycle_watched _ _ _ rfl (by decide), .inr (by decide), .inl (by decide)⟩,
    ⟨?_, ?_, ?_, _, rfl, by decide, by decide, storeCycle_watched _ _ _ rfl (by decide),
      ⟨.inr (by decide), .inr (.inr (by decide))⟩, ⟨by decide, ⟨storeCycle, List.mem_cons_self, storeCycle_watched _ _ _ rfl (by decide)⟩, .inr (by decide), by decide⟩⟩,
    ⟨?_, ?_, ?_, _, rfl, by decide, ?_, ?_, by decide, by decide⟩⟩ <;>
    first
    | (unfold State.undisturbed; decide)
    | (unfold State.noInstrBreakpoint; decide)
    | (unfold State.fetchesWord; decide)
    | (rintro ⟨-, h | h | h⟩ <;> revert h <;> decide)

theorem cacheSound_reset : State.reset.cacheSound := by
  unfold State.cacheSound; decide

/-- The first step after reset, where a store has been placed. -/
def storeFirst : State := State.reset.withFetchWord 32 0x90600200

theorem witness_StepKeepsPcAligned : storeFirst.pcAligned ∧ ∃ t, step storeFirst = .next t ∧ t.pc = 0x104#32 := by
  refine ⟨?_, _, rfl, by decide⟩
  unfold State.pcAligned; decide

theorem witness_StepKeepsMemoryCanonical : storeFirst.memoryCanonical ∧ ∃ t, step storeFirst = .next t := by
  refine ⟨?_, _, rfl⟩
  unfold State.memoryCanonical; decide

theorem witness_StepKeepsReservedBitsZero :
  (storeFirst.reservedClear ∧ storeFirst.developmentReservedClear) ∧ ∃ t, step storeFirst = .next t := by
  refine ⟨⟨?_, ?_⟩, _, rfl⟩
  · unfold State.reservedClear within; decide
  · unfold State.developmentReservedClear within; decide

theorem witness_StepKeepsFpscrSummaries : storeFirst.fpscrSummed ∧ ∃ t, step storeFirst = .next t := by
  refine ⟨?_, _, rfl⟩
  unfold State.fpscrSummed; decide

theorem witness_StepKeepsCacheAndDebugSound :
  (State.reset.cacheSound ∧ State.reset.debugOnlyEnabled) ∧ ∃ t, step State.reset = .next t := by
  refine ⟨⟨cacheSound_reset, ?_⟩, _, rfl⟩
  unfold State.debugOnlyEnabled; decide

theorem witness_ValidFormsRunInvalidFormsRefused_run :
  (Instr.sync.wellFormed = true ∧ start.inDebug = false) ∧
  (let s := { start with xer := 0x0000007C#32 }
   (Instr.lswx 0 31 31).wellFormed = true ∧ s.inDebug = false ∧ msrLE s.msr = false ∧
     (xerBytes s.xer = 0 → (0 : Reg) ≠ 31) ∧ ∀ k, k < (xerBytes s.xer + 3) / 4 → (31 : Reg) ≠ 0 + BitVec.ofNat 5 k) ∧
  ((Instr.lswx 5 4 6).wellFormed = true ∧ xerBytes start.xer = 0 ∧ (5 : Reg) ≠ 4 ∧
     ∀ k, k < (xerBytes start.xer + 3) / 4 → (6 : Reg) ≠ 5 + BitVec.ofNat 5 k) := by decide

theorem witness_ValidFormsRunInvalidFormsRefused_refuse :
  validBO 0b00110#5 = false ∧ validBO 0b11111#5 = false ∧ (0b00110#5).getLsbD 2 = true ∧ (0b00000#5).getLsbD 2 = false ∧
  (0b11011#5).getLsbD 2 = false ∧
  (msrLE start.msr = false ∧ xerBytes start.xer = 0 ∧ (5 : Reg) = 5) ∧
  (let s := { start with xer := 0x00000001#32 }
   msrLE s.msr = false ∧ 0 < (xerBytes s.xer + 3) / 4 ∧ (5 : Reg) = 5 + BitVec.ofNat 5 0) ∧
  (let s := { start with xer := 0x0000007F#32 }
   msrLE s.msr = false ∧ 31 < (xerBytes s.xer + 3) / 4 ∧ (4 : Reg) = 5 + BitVec.ofNat 5 31) := by decide

theorem witness_AddSubtractResult :
  (∃ x, sumForm start (.addi 3 0 0x8000) = some x) ∧ (∃ x, sumForm start (.subfe 3 4 5 true true) = some x) :=
  ⟨⟨_, rfl⟩, ⟨_, rfl⟩⟩
theorem witness_MultiplyDivideResult_multiply :
  (∃ x, productForm start (.mulhwu 3 4 5 true) = some x) ∧ (∃ x, productForm start (.mullw 3 4 5 true true) = some x) :=
  ⟨⟨_, rfl⟩, ⟨_, rfl⟩⟩

/-- A defined quotient with the largest magnitudes, and each undefined case. -/
theorem witness_MultiplyDivideResult_divide :
  (∃ x, quotientForm (withR start [(4, 0x80000000#32), (5, 1)]) (.divw 3 4 5 true true) = some x ∧ ¬x.undefined) ∧
  (∃ x, quotientForm (withR start [(4, 0xFFFFFFFF#32), (5, 1)]) (.divwu 3 4 5 false false) = some x ∧ ¬x.undefined) ∧
  (∃ x, quotientForm (withR start [(4, 0x80000000#32), (5, 0xFFFFFFFF#32)]) (.divw 3 4 5 true true) = some x ∧
    x.undefined) ∧
  (∃ x, quotientForm (withR start [(4, 7), (5, 0)]) (.divwu 3 4 5 true true) = some x ∧ x.undefined) := by
  refine ⟨⟨_, rfl, ?_⟩, ⟨_, rfl, ?_⟩, ⟨_, rfl, ?_⟩, ⟨_, rfl, ?_⟩⟩ <;> (unfold QuotientForm.undefined; decide)

theorem witness_CompareLogicalResult :
  (∃ x, compareForm start (.cmpli 7 true 3 0xFFFF) = some x) ∧ (∃ x, bitForm start (.andisRc 3 4 0x8000) = some x) :=
  ⟨⟨_, rfl⟩, ⟨_, rfl⟩⟩
theorem witness_RotateShiftResult_rotate :
  (∃ x, rotateForm start (.rlwinm 3 4 0 28 3 true) = some x) ∧ (∃ x, rotateForm start (.rlwimi 3 3 31 0 31 false) = some x) :=
  ⟨⟨_, rfl⟩, ⟨_, rfl⟩⟩
theorem witness_RotateShiftResult_shift :
  (∃ x, shiftForm (withR start [(5, 0x3F)]) (.sraw 3 4 5 true) = some x) ∧ (∃ x, shiftForm start (.srawi 3 4 0 false) = some x) :=
  ⟨⟨_, rfl⟩, ⟨_, rfl⟩⟩

/-- A word that wraps from the last byte of the address space to the first, and a half word in little-endian mode. -/
theorem witness_LoadResult :
  (∃ x, loadForm start (.lwz 3 0xFFFF 0) = some x ∧ start.accessible .load x.ea x.size) ∧
  (∃ x, loadForm little (.lhau 3 2 4) = some x ∧ little.accessible .load x.ea x.size) := by
  refine ⟨⟨_, rfl, ?_⟩, ⟨_, rfl, ?_⟩⟩ <;> (unfold State.accessible; decide)
theorem witness_StoreResult :
  (∃ x, storeForm start (.stwu 3 0xFFFF 0) = some x ∧ start.memoryCanonical ∧ start.accessible .store x.ea x.bytes.length) ∧
  (∃ x, storeForm little (.sthbrx 3 4 5) = some x ∧ little.memoryCanonical ∧
    little.accessible .store x.ea x.bytes.length) := by
  refine ⟨⟨_, rfl, ?_, ?_⟩, ⟨_, rfl, ?_, ?_⟩⟩ <;>
    first | (unfold State.memoryCanonical; decide) | (unfold State.accessible; decide)

/-- `lmw` of one register and of all, `lswi` of 32 bytes, `lswx` of 1, of 124 and of no bytes. -/
theorem witness_MultipleAndStringResult_load :
  (∃ x, transferLoad start (.lmw 31 0xFFFC 0) = some x ∧ start.transferable .load x) ∧
  (∃ x, transferLoad start (.lmw 0 0 1) = some x ∧ start.transferable .load x) ∧
  (∃ x, transferLoad start (.lswi 30 4 0) = some x ∧ start.transferable .load x) ∧
  (∃ x, transferLoad { start with xer := 0x00000001#32 } (.lswx 5 4 6) = some x ∧
    State.transferable { start with xer := 0x00000001#32 } .load x) ∧
  (∃ x, transferLoad { start with xer := 0x0000007C#32 } (.lswx 0 31 31) = some x ∧
    State.transferable { start with xer := 0x0000007C#32 } .load x) ∧
  (msrLE start.msr = false ∧ xerBytes start.xer = 0 ∧ (5 : Reg) ≠ 4 ∧ (5 : Reg) ≠ 6) := by
  refine ⟨⟨_, rfl, ?_⟩, ⟨_, rfl, ?_⟩, ⟨_, rfl, ?_⟩, ⟨_, rfl, ?_⟩, ⟨_, rfl, ?_⟩, by decide⟩ <;> (unfold State.transferable; decide)
theorem witness_MultipleAndStringResult_store :
  (∃ x, transferStore start (.stmw 31 4 0) = some x ∧ start.memoryCanonical ∧ start.transferable .store x) ∧
  (∃ x, transferStore start (.stswi 30 4 0) = some x ∧ start.memoryCanonical ∧ start.transferable .store x) ∧
  (∃ x, transferStore start (.stswx 3 4 5) = some x ∧ start.memoryCanonical ∧ start.transferable .store x) ∧
  (∃ x, transferStore { start with xer := 0x0000007F#32 } (.stswx 3 4 5) = some x ∧
    State.transferable { start with xer := 0x0000007F#32 } .store x) := by
  refine ⟨⟨_, rfl, ?_, ?_⟩, ⟨_, rfl, ?_, ?_⟩, ⟨_, rfl, ?_, ?_⟩, ⟨_, rfl, ?_⟩⟩ <;>
    first | (unfold State.memoryCanonical; decide) | (unfold State.transferable; decide)

theorem witness_MisalignedAccessTakesAlignment :
  (transferEa little (.lswx 5 4 5) = some 0 ∧ little.inDebug = false ∧ msrLE little.msr = true) ∧
  (transferEa start (.stmw 31 3 0) = some 3 ∧ (3#32).toNat % 4 ≠ 0 ∧
    ∃ r d rA, Instr.stmw 31 3 0 = .lmw r d rA ∨ Instr.stmw 31 3 0 = .stmw r d rA) ∧
  ((withR start [(4, 0xFFFFFFFE#32)]).eaX 0 4).toNat % 4 ≠ 0 ∧
  (∃ x, loadForm little (.lwz 3 2 0) = some x ∧ x.ea.toNat % x.size ≠ 0) ∧
  (∃ x, storeForm little (.sth 3 1 0) = some x ∧ x.ea.toNat % x.bytes.length ≠ 0) ∧
  (fpAccess start (.stfiwx 1 0 4) = some (0, 4) ∧
    fpAccess start (.lfd 1 2 0) = some (2, 8) ∧ msrFP start.msr = true ∧ (2#32).toNat % 4 ≠ 0 ∧ msrLE start.msr = false) ∧
  (fpAccess little (.stfd 1 4 0) = some (4, 8) ∧ msrFP little.msr = true ∧ msrLE little.msr = true ∧ (4#32).toNat % 8 ≠ 0 ∧
    little.inDebug = false) := by
  refine ⟨⟨by decide, by decide, by decide⟩, ⟨by decide, by decide, 31, 3, 0, .inr rfl⟩, by decide, ⟨_, rfl, by decide⟩,
    ⟨_, rfl, by decide⟩, by decide, by decide⟩

/-- Machines on which a data access ends in a bus error from 16 MB on, and every fetch does. -/
def errorStore : Platform :=
  { Platform.plain with
    map := [{ first := 0x01000000#32, last := 0xFFFFFFFF#32, errFetch := false, errLoad := false, errStore := true
              inhibited := false }] }
def errorFetch : Platform :=
  { Platform.plain with
    map := [{ first := 0, last := 0xFFFFFFFF#32, errFetch := true, errLoad := false, errStore := false, inhibited := false }] }

/-- With ME = 1 and with ME = 0: a load that fails in its first cycle; a misaligned store that fails in its second; a fetch. With ME =
0 also debug mode enabled, so that the exception's registers are written. -/
theorem witness_BusErrorResult (msr : Word) (h : msr = 0x00001002#32 ∨ msr = 0x00000002#32) :
  (let s := beforeBusError msr
   ∃ x c, loadForm s (.lwz 3 0 4) = some x ∧ s.inDebug = false ∧ s.intrusions = [] ∧ s.leMisaligned x.ea x.size = false ∧
     s.firstError .load (s.operandCycles x.ea x.size) c) ∧
  (let s := withR { State.reset with msr := msr, platform := errorStore } [(4, 0x01000000#32)]
   ∃ x c, storeForm s (.stw 3 0xFFFE 4) = some x ∧ s.memoryCanonical ∧ s.inDebug = false ∧ s.intrusions = [] ∧
     s.leMisaligned x.ea x.bytes.length = false ∧ s.firstError .store (s.operandCycles x.ea x.bytes.length) c ∧
     0 < (c.addr - s.busAddress x.ea x.bytes.length).toNat) ∧
  (let s := { State.reset with msr := msr, platform := errorFetch }
   s.undisturbed ∧ s.cacheOn = false ∧ s.busError .fetch (fetchAddr s.msr s.pc) 4 = true) := by
  rcases h with h | h <;> subst h <;>
    refine ⟨⟨_, _, rfl, by decide, by decide, by decide, [], _, rfl, by decide, by decide⟩,
      ⟨_, _, rfl, ?_, by decide, by decide, by decide, ⟨[_], _, rfl, by decide, by decide⟩, by decide⟩, ?_, by decide, by decide⟩ <;>
    first | (unfold State.memoryCanonical; decide) | (unfold State.undisturbed; decide)
theorem witness_BusErrorResult_checks :
  (msrME (beforeBusError 0x00001002#32).msr = true ∧ checks (beforeBusError 0x00001002#32)) ∧
  (let s := { beforeBusError 0x00000002#32 with debugEnabled := true, der := 0x20000000#32 }
   msrME s.msr = false ∧ checks s) ∧ ¬checks (beforeBusError 0x00000002#32) := by
  unfold checks; decide

/-- A zero and the largest finite single, a denormalized single, and a double. -/
theorem witness_FpLoadResult :
  (∃ x, fpLoadSingle start (.lfs 1 4 0) = some x ∧ start.fpAccessible .load x.ea 4 ∧
    ¬(singleExp (start.wordAt (start.busAddress x.ea 4)) = 0 ∧ singleFrac (start.wordAt (start.busAddress x.ea 4)) ≠ 0)) ∧
  (let s := withM start 4 [0x7F, 0x7F, 0xFF, 0xFF]
   ∃ x, fpLoadSingle s (.lfsu 1 4 0) = some x ∧ s.fpAccessible .load x.ea 4 ∧
    ¬(singleExp (s.wordAt (s.busAddress x.ea 4)) = 0 ∧ singleFrac (s.wordAt (s.busAddress x.ea 4)) ≠ 0)) ∧
  (let s := withM start 4 [0x80, 0x00, 0x00, 0x01]
   ∃ x, fpLoadSingle s (.lfs 1 4 0) = some x ∧ s.fpAccessible .load x.ea 4 ∧ s.inDebug = false ∧
    singleExp (s.wordAt (s.busAddress x.ea 4)) = 0 ∧ singleFrac (s.wordAt (s.busAddress x.ea 4)) ≠ 0) ∧
  (∃ x, fpLoadDouble little (.lfd 1 8 0) = some x ∧ little.fpAccessible .load x.ea 8) := by
  refine ⟨⟨_, rfl, ?_, by decide⟩, ⟨_, rfl, ?_, by decide⟩, ⟨_, rfl, ?_, by decide, by decide, by decide⟩, ⟨_, rfl, ?_⟩⟩ <;>
    (unfold State.fpAccessible; decide)

/-- A double at the top of memory, `stfiwx` in little-endian mode, and singles: 1.0, the smallest normalized one, an infinity. -/
theorem witness_FpStoreResult :
  (∃ x, fpStoreDouble start (.stfd 1 0xFFF8 0) = some x ∧ start.memoryCanonical ∧ start.fpAccessible .store x.ea 8) ∧
  (little.memoryCanonical ∧ little.fpAccessible .store (little.eaX 0 4) 4) ∧
  (∃ x, fpStoreSingle (fpOn [(1, 0x3FF0000000000000#64)]) (.stfs 1 8 0) = some x ∧
    (fpOn [(1, 0x3FF0000000000000#64)]).fpAccessible .store x.ea 4 ∧
    doubleOfSingle ((fpOn [(1, 0x3FF0000000000000#64)]).f x.fr) 0x3F800000#32 ∧
    ¬(singleExp 0x3F800000#32 = 0 ∧ singleFrac 0x3F800000#32 ≠ 0)) ∧
  (doubleOfSingle 0xB810000000000000#64 0x80800000#32 ∧ doubleOfSingle 0x7FF0000000000000#64 0x7F800000#32) ∧
  (let s := fpOn [(1, 0x800FFFFFFFFFFFFF#64), (2, 0xFFF8000010000001#64), (3, 0x0010000000000000#64), (4, 0x380FFFFFE0000000#64)]
   (∃ x, fpStoreSingle s (.stfsux 1 5 6) = some x ∧ s.memoryCanonical ∧ s.fpAccessible .store x.ea 4) ∧
   fpExp (s.f 1) = 0 ∧ fpExp (s.f 2) = 2047 ∧ fpExp (s.f 3) = 1 ∧ fpExp (s.f 4) = 896 ∧ s.inDebug = false) := by
  refine ⟨⟨_, rfl, ?_, ?_⟩, ⟨?_, ?_⟩, ⟨_, rfl, ?_, ?_, by decide⟩, ⟨?_, ?_⟩,
    ⟨_, rfl, ?_, ?_⟩, by decide⟩ <;>
    first | (unfold State.memoryCanonical; decide) | (unfold State.fpAccessible; decide) | (unfold doubleOfSingle; decide)

/-- The unavailable facility too, and SIE mode. -/
theorem witness_FpMoveResult :
  (∃ x, fpMoveForm start (.fnabs 1 2 true) = some x ∧ msrFP start.msr = true) ∧
  (∃ x, fpMoveForm State.reset (.fneg 1 2 false) = some x ∧ msrFP State.reset.msr = false ∧ State.reset.inDebug = false) ∧
  (bits 0xFC3F1090#32 0 6 = 63#6 ∧ bits 0xFC3F1090#32 21 10 = 72#10) :=
  ⟨⟨_, rfl, by decide⟩, ⟨_, rfl, by decide, by decide⟩, by decide⟩

theorem witness_FloatUnavailable :
  isFloat (.stfiwx 1 2 3) = true ∧ msrFP State.reset.msr = false ∧ State.reset.inDebug = false := by decide

theorem witness_ExactArithmetic :
  isFinite 0x7FEFFFFFFFFFFFFF#64 = true ∧ isFinite 0x0000000000000001#64 = true ∧
  (Num.fin true 3 (-2)).isFin = true ∧ (Num.fin false 0 0).isFin = true ∧ (1 : Nat) ≠ 0 ∧
  (2 ^ 53 - 1 : Nat) ≠ 0 ∧ (2 ^ 53 - 1 : Nat) < 2 ^ 53 := by decide

theorem witness_RoundingIsCorrect : (2 ^ 53 + 1 : Nat) ≠ 0 := by decide

theorem representable_double {x : FpForm} (hp : x.p = .double) (h : (x.op.operands.all fun d => !isDenormal d) = true) :
    x.representable := by
  unfold FpForm.representable; rw [hp]; simpa using h

theorem representable_single {x : FpForm} (hp : x.p = .single) (h : x.op.operands.all singleOK = true) :
    x.representable := by
  unfold FpForm.representable; rw [hp]; simpa using h

theorem ordinary_double {x : FpForm} (hp : x.p = .double) (hf : x.op.operands.all isFinite = true) (hz : x.op.byZero = false)
    (h : (x.op.operands.all fun d => !isDenormal d) = true) : x.ordinary :=
  ⟨by simpa using hf, hz, representable_double hp h⟩

/-- Operands at the bounds: 2^1023, 2, 2^-1022, 0.5, 1, infinities, a signalling NaN of double and of single format, -1, and 2^-126;
f9 is zero. MSR, FPSCR and FPECR as given. -/
def fpAt (msr fpscr fpecr : Word) : State :=
  withF { State.reset with msr := msr, fpscr := fpscr, fpecr := fpecr }
    [(2, 0x7FE0000000000000#64), (3, 0x4000000000000000#64), (4, 0x0010000000000000#64), (5, 0x3FE0000000000000#64),
     (6, 0x3FF0000000000000#64), (7, 0x7FF0000000000000#64), (8, 0xFFF0000000000000#64), (10, 0x7FF0000000000001#64),
     (11, 0x7FF0000020000000#64), (14, 0xBFF0000000000000#64), (15, 0x3810000000000000#64)]

/-- The value of a pattern from its fields. -/
theorem fpValue_normal {d : Dword} {e f : Nat} {n : Bool} (hs : fpSign d = n) (he : fpExp d = e) (hf : fpFrac d = f)
    (h0 : e ≠ 0) : fpValue d = signFactor n * (((2 ^ 52 + f : ℕ) : ℚ) * 2 ^ ((e : ℤ) - 1075)) := by
  unfold fpValue; rw [hs, he, hf, if_neg h0]

/-- A power of two as a pattern. -/
theorem fpValue_pow {d : Dword} (e : Nat) (hs : fpSign d = false) (he : fpExp d = e) (hf : fpFrac d = 0) (h0 : e ≠ 0) :
    fpValue d = 2 ^ ((e : ℤ) - 1023) := by
  rw [fpValue_normal hs he hf h0, show (e : ℤ) - 1023 = 52 + ((e : ℤ) - 1075) by ring, zpow_add₀ (by norm_num)]
  norm_num [signFactor]

/-- `fmul` of two powers of two computes their product, whatever MSR, FPSCR and FPECR are. -/
theorem computes_fmul (msr fpscr fpecr : Word) (a c : Reg) (rc : Bool) (va vc : Dword) (ea ec : Nat) (k : ℤ)
    (hva : (fpAt msr fpscr fpecr).f a = va) (hvc : (fpAt msr fpscr fpecr).f c = vc)
    (ha : fpSign va = false ∧ fpExp va = ea ∧ fpFrac va = 0) (hc : fpSign vc = false ∧ fpExp vc = ec ∧ fpFrac vc = 0)
    (h : 0 < ea ∧ ea < 2047 ∧ 0 < ec ∧ ec < 2047) (hk : (ea : ℤ) - 1023 + ((ec : ℤ) - 1023) = k) :
    computes (fpAt msr fpscr fpecr) (.fmul 1 a c rc) { z := 2 ^ k, p := .double, neg := false, frD := 1, rc := rc } := by
  subst hva hvc
  obtain ⟨h1, h2, h3, h4⟩ := h
  refine .inl ⟨_, rfl, ordinary_double rfl ?_ rfl ?_, ?_⟩
  · simp [FpOp.operands, isFinite, ha.2.1, hc.2.1]; omega
  · simp [FpOp.operands, isDenormal, ha.2.1, hc.2.1]; omega
  · congr 1
    show _ = fpValue _ * fpValue _
    rw [fpValue_pow ea ha.1 ha.2.1 ha.2.2 (by omega), fpValue_pow ec hc.1 hc.2.1 hc.2.2 (by omega),
      ← zpow_add₀ (by norm_num), hk]

/-- A power of two is its own rounding. -/
theorem rounds_pow (p : Precision) (rn : BitVec 2) (k : ℤ) :
    Rounds p rn (2 ^ k) { sig := 2 ^ (p.width - 1), exp := k, fr := false, fi := false } := by
  have hp : (0 : ℚ) < 2 ^ k := by positivity
  have hw : 1 ≤ p.width := by cases p <;> decide
  have hy : Rounded.magnitude { sig := 2 ^ (p.width - 1), exp := k, fr := false, fi := false } p = 2 ^ k := by
    unfold Rounded.magnitude
    push_cast
    rw [← zpow_natCast, ← zpow_add₀ (by norm_num)]
    congr 1
    push_cast [Nat.cast_sub hw]
    ring
  refine ⟨k, (abs_of_pos hp).ge, ?_, le_refl _, ?_, ?_⟩
  · rw [abs_of_pos hp, zpow_add₀ (by norm_num)]; linarith
  · exact Nat.pow_lt_pow_right (by norm_num) (by omega)
  · have hu : (0 : ℚ) < 2 ^ (k - p.width + 1) := by positivity
    simp only [hy, abs_of_pos hp, sub_self, abs_zero, mul_zero]
    refine ⟨le_refl _, hu, by simp, by simp, fun _ => ⟨hu.le, fun h => absurd h hu.ne⟩, fun _ => le_refl _, fun _ => ?_, fun _ => ?_⟩ <;>
      simp [not_lt.mpr hp.le]

/-- States of each mode: exceptions ignored with the FPSCR given, other exceptions enabled in precise mode, precise mode. -/
theorem plainFloat_ignored (fpscr : Word) (sets : List Nat) : (fpAt 0x2000#32 fpscr 0).plainFloat sets :=
  ⟨(by decide : msrFP 0x2000#32 = true), (by decide : bit 0#32 0 = false), .inl (by decide : msrFE 0x2000#32 = false)⟩
theorem plainFloat_others : (fpAt 0x2900#32 0xF8#32 0).plainFloat [] ∧ (fpAt 0x2900#32 0x78#32 0).plainFloat [7, 23] := by
  unfold State.plainFloat someEnabled; decide
theorem preciseFloat_of (fpscr : Word) : (fpAt 0x2800#32 fpscr 0).preciseFloat :=
  ⟨(by decide : msrFP 0x2800#32 = true), (by decide : msrFE 0x2800#32 = true), (by decide : bit 0#32 0 = false), rfl⟩

/-- 0.1 in f2, precise mode, XE set: rounded to single precision it is inexact. -/
def precise01 : State :=
  withF { State.reset with msr := 0x2800#32, fpscr := 0x08#32 } [(2, 0x3FB999999999999A#64)]

/-- 0.1 rounded to single precision. -/
def rounded01 : Rounded := { sig := 13421773, exp := -4, fr := true, fi := true }

theorem rounds_01 : Rounds .single (fpRN precise01.fpscr) (fpValue (precise01.f 2)) rounded01 := by
  rw [show fpRN precise01.fpscr = 0#2 by decide]
  have h : fpValue (precise01.f 2) = (2 ^ 52 + 2702159776422298 : ℕ) * 2 ^ (-56 : ℤ) := by
    rw [fpValue_normal (n := false) (e := 1019) (f := 2702159776422298) (by decide) (by decide) (by decide) (by decide)]
    norm_num [signFactor]
  have hy : rounded01.magnitude .single = 13421773 * 2 ^ (-27 : ℤ) := by
    unfold Rounded.magnitude rounded01; norm_num [Precision.width]
  unfold Rounds
  rw [hy, h]
  refine ⟨-4, ?_, ?_, ?_, ?_, ?_, ?_, ?_, ?_, ?_, ?_, ?_, by decide⟩ <;>
    norm_num [rounded01, Precision.width, abs_of_pos, abs_of_neg]

/-- A product at the lower bound of the normal range, 2^-1022 * 1, with exceptions ignored and with other exceptions enabled in precise
mode; the greatest exponent; an inexact `frsp` with XE in precise mode. -/
theorem witness_FpArithmeticRounds :
  (∃ x r, computes (fpAt 0x2000#32 0 0) (.fmul 1 4 6 true) x ∧ x.p.smallest ≤ |x.z| ∧
    Rounds x.p (fpRN (fpAt 0x2000#32 0 0).fpscr) x.z r ∧ r.exp ≤ x.p.maxExp ∧
    (fpAt 0x2000#32 0 0).plainFloat (inexactBit r.fi)) ∧
  (∃ x r, computes (fpAt 0x2900#32 0xF8#32 0) (.fmul 1 2 6 false) x ∧ x.p.smallest ≤ |x.z| ∧
    Rounds x.p (fpRN (fpAt 0x2900#32 0xF8#32 0).fpscr) x.z r ∧ r.exp = x.p.maxExp ∧
    (fpAt 0x2900#32 0xF8#32 0).plainFloat (inexactBit r.fi)) ∧
  (∃ x r, computes precise01 (.frsp 1 2 false) x ∧ x.p.smallest ≤ |x.z| ∧ Rounds x.p (fpRN precise01.fpscr) x.z r ∧
    r.exp ≤ x.p.maxExp ∧ precise01.assists (inexactBit r.fi)) := by
  refine ⟨⟨_, _, computes_fmul _ _ _ 4 6 true 0x0010000000000000#64 0x3FF0000000000000#64 1 1023 (-1022) rfl rfl (by decide) (by decide)
      (by decide) (by norm_num), ?_,
      rounds_pow _ _ _, by decide, plainFloat_ignored _ _⟩,
    ⟨_, _, computes_fmul _ _ _ 2 6 false 0x7FE0000000000000#64 0x3FF0000000000000#64 2046 1023 1023 rfl rfl (by decide) (by decide)
      (by decide) (by norm_num), ?_,
      rounds_pow _ _ _, by decide, plainFloat_others.1⟩,
    ⟨{ z := fpValue (precise01.f 2), p := .single, neg := false, frD := 1, rc := false }, rounded01,
      .inr ⟨2, rfl, by decide, by decide, rfl⟩, ?_, rounds_01, by decide, ?_⟩⟩
  · exact (abs_of_pos (by positivity : (0 : ℚ) < 2 ^ (-1022 : ℤ))).ge
  · refine le_trans ?_ (abs_of_pos (by positivity : (0 : ℚ) < 2 ^ (1023 : ℤ))).ge
    exact zpow_le_zpow_right₀ (by norm_num) (by decide)
  · rw [fpValue_normal (n := false) (e := 1019) (f := 2702159776422298) (by decide) (by decide) (by decide) (by decide)]
    norm_num [signFactor, Precision.smallest, Precision.minExp]
  · unfold State.assists State.preciseFloat someEnabled; decide

/-- No operand is a NaN. -/
theorem noNaN {x : FpForm} (h : (x.op.operands.all fun d => !isNaN d) = true) : ∀ d ∈ x.op.operands, isNaN d = false := by
  simpa using h

/-- An infinity plus a number, an exact zero, and a number over an infinity. -/
theorem witness_FpZeroAndInfinityResult :
  (let s := fpAt 0x2900#32 0xF8#32 0
   s.plainFloat [] ∧ ∃ x sign, fpForm s (.fadd 1 7 6 true) = some x ∧ x.representable ∧
     (∀ d ∈ x.op.operands, isNaN d = false) ∧ x.op.invalidBit = none ∧ x.op.infinite = some sign) ∧
  (let s := fpAt 0x2000#32 0 0
   s.plainFloat [] ∧
   (∃ x, fpForm s (.fsub 1 6 6 false) = some x ∧ x.representable ∧ (∀ d ∈ x.op.operands, isNaN d = false) ∧
     x.op.invalidBit = none ∧ x.ordinary ∧ x.op.value = 0) ∧
   (∃ x, fpForm s (.fdiv 1 6 8 false) = some x ∧ x.representable ∧ (∀ d ∈ x.op.operands, isNaN d = false) ∧
     x.op.invalidBit = none ∧ x.op.byInfinity = true)) := by
  refine ⟨⟨plainFloat_others.1, _, _, rfl, representable_double rfl (by decide), noNaN (by decide), by decide, rfl⟩,
    plainFloat_ignored _ _,
    ⟨_, rfl, representable_double rfl (by decide), noNaN (by decide), by decide, ordinary_double rfl (by decide) rfl (by decide),
      sub_self _⟩,
    ⟨_, rfl, representable_double rfl (by decide), noNaN (by decide), by decide, by decide⟩⟩

/-- 2^1023 * 2, the first power of two beyond the range, and 2^-1022 * 0.5, the first below it, in every mode of the clauses. -/
theorem witness_FpRangeResult_values (msr fpscr fpecr : Word) :
  (∃ x r, computes (fpAt msr fpscr fpecr) (.fmul 1 2 3 true) x ∧ x.z ≠ 0 ∧
    Rounds x.p (fpRN (fpAt msr fpscr fpecr).fpscr) x.z r ∧ r.exp = x.p.maxExp + 1) ∧
  (∃ x r, computes (fpAt msr fpscr fpecr) (.fmul 1 4 5 true) x ∧ x.z ≠ 0 ∧ |x.z| < x.p.smallest ∧
    Rounds x.p (fpRN (fpAt msr fpscr fpecr).fpscr) x.z r) := by
  refine ⟨⟨_, _, computes_fmul _ _ _ 2 3 true 0x7FE0000000000000#64 0x4000000000000000#64 2046 1024 1024 rfl rfl (by decide) (by decide)
      (by decide) (by norm_num),
      (zpow_pos (by norm_num) _).ne', rounds_pow _ _ _, by decide⟩,
    ⟨_, _, computes_fmul _ _ _ 4 5 true 0x0010000000000000#64 0x3FE0000000000000#64 1 1022 (-1023) rfl rfl (by decide) (by decide)
      (by decide) (by norm_num),
      (zpow_pos (by norm_num) _).ne', ?_, rounds_pow _ _ _⟩⟩
  rw [abs_of_pos (by positivity)]
  exact zpow_lt_zpow_right₀ (by norm_num) (by decide)
theorem witness_FpRangeResult :
  ((fpAt 0x2000#32 0 0).plainFloat [3, 6] ∧ bit (fpAt 0x2000#32 0 0).fpscr 25 = false ∧
    bit (fpAt 0x2000#32 0x04#32 0).fpscr 26 = false ∧ bit (fpAt 0x2000#32 0x04#32 0).fpscr 29 = true ∧
    (fpAt 0x2000#32 0x04#32 0).plainFloat [4]) ∧
  (∀ fi, (fpAt 0x2000#32 0x60#32 0).plainFloat (3 :: inexactBit fi) ∧ (fpAt 0x2000#32 0x60#32 0).plainFloat (4 :: inexactBit fi) ∧
    bit (fpAt 0x2000#32 0x60#32 0).fpscr 25 = true ∧ bit (fpAt 0x2000#32 0x60#32 0).fpscr 26 = true) ∧
  ((fpAt 0x2800#32 0x68#32 0).preciseFloat ∧ bit (fpAt 0x2800#32 0x68#32 0).fpscr 25 = true ∧
    bit (fpAt 0x2800#32 0x68#32 0).fpscr 26 = true ∧ bit (fpAt 0x2800#32 0x68#32 0).fpscr 28 = true) ∧
  (let s := fpAt 0x2000#32 0 0
   bit s.fpscr 26 = false ∧ bit s.fpscr 29 = false ∧ msrFP s.msr = true ∧ s.sie = false ∧ s.inDebug = false) ∧
  (let s := fpAt 0x2000#32 0 0x80000000#32
   bit s.fpscr 26 = false ∧ bit s.fpscr 29 = false ∧ msrFP s.msr = true ∧ s.sie = true ∧ msrFE s.msr = false) :=
  ⟨⟨plainFloat_ignored _ _, by decide, by decide, by decide, plainFloat_ignored _ _⟩,
   fun _ => ⟨plainFloat_ignored _ _, plainFloat_ignored _ _, by decide, by decide⟩,
   ⟨preciseFloat_of _, by decide, by decide, by decide⟩, by decide, by decide⟩

/-- The operands are the same in every mode. -/
theorem fpAt_fpr (msr fpscr fpecr : Word) : (fpAt msr fpscr fpecr).fpr = (fpAt 0x2000#32 0 0).fpr := rfl

/-- The four invalid operations, and 1 over 0 (the modes are those of `witness_enableBits`). -/
theorem witness_FpInvalidOperationResult :
  let s := fpAt 0x2000#32 0 0
  (∃ x, fpForm s (.fsub 1 7 7 true) = some x ∧ x.representable ∧ (∀ d ∈ x.op.operands, isNaN d = false) ∧
    x.op.invalidBit = some 8) ∧
  (∃ x, fpForm s (.fdiv 1 7 8 true) = some x ∧ x.representable ∧ (∀ d ∈ x.op.operands, isNaN d = false) ∧
    x.op.invalidBit = some 9) ∧
  (∃ x, fpForm s (.fdivs 1 9 9 true) = some x ∧ x.representable ∧ (∀ d ∈ x.op.operands, isNaN d = false) ∧
    x.op.invalidBit = some 10) ∧
  (∃ x, fpForm s (.fmadd 1 9 7 8 true) = some x ∧ x.representable ∧ (∀ d ∈ x.op.operands, isNaN d = false) ∧
    x.op.invalidBit = some 11) ∧
  (∃ x, fpForm s (.fdiv 1 6 9 true) = some x ∧ x.representable ∧ x.op = .div (s.f 6) (s.f 9) ∧ isZero (s.f 9) = true ∧
    isFinite (s.f 6) = true ∧ isZero (s.f 6) = false) := by
  refine ⟨⟨_, rfl, representable_double rfl (by decide), noNaN (by decide), by decide⟩,
    ⟨_, rfl, representable_double rfl (by decide), noNaN (by decide), by decide⟩,
    ⟨_, rfl, representable_single rfl (by decide), noNaN (by decide), by decide⟩,
    ⟨_, rfl, representable_double rfl (by decide), noNaN (by decide), by decide⟩,
    ⟨_, rfl, representable_double rfl (by decide), rfl, by decide, by decide, by decide⟩⟩
theorem witness_enableBits :
  (bit (fpAt 0x2900#32 0x68#32 0).fpscr 24 = false ∧ bit (fpAt 0x2900#32 0x68#32 0).fpscr 27 = false ∧
    ∀ sets ∈ [[5], [7], [8], [9], [10], [11], [7, 11], [23], [7, 23]], (fpAt 0x2900#32 0x68#32 0).plainFloat sets) ∧
  (bit (fpAt 0x2000#32 0x90#32 0).fpscr 24 = true ∧ bit (fpAt 0x2000#32 0x90#32 0).fpscr 27 = true ∧
    ∀ sets, (fpAt 0x2000#32 0x90#32 0).plainFloat sets) ∧
  (bit (fpAt 0x2800#32 0x90#32 0).fpscr 24 = true ∧ bit (fpAt 0x2800#32 0x90#32 0).fpscr 27 = true ∧
    ∀ sets ∈ [[5], [7], [8], [9], [10], [11], [7, 11], [23], [7, 23]], (fpAt 0x2800#32 0x90#32 0).assists sets) := by
  refine ⟨⟨by decide, by decide, ?_⟩, ⟨by decide, by decide, plainFloat_ignored _⟩, by decide, by decide, ?_⟩
  · unfold State.plainFloat someEnabled; decide
  · unfold State.assists State.preciseFloat someEnabled; decide

/-- A signalling NaN, and a NaN beside infinity times zero (the modes are those of `witness_enableBits`). -/
theorem witness_FpNanOperand :
  let s := fpAt 0x2000#32 0 0
  (∃ x, fpForm s (.fadd 1 6 10 true) = some x ∧ x.representable ∧
    x.op.operands.find? isNaN = some 0x7FF0000000000001#64 ∧ x.op.operands.any isSNaN = true) ∧
  (∃ x, fpForm s (.fmadds 1 7 9 11 true) = some x ∧ x.representable ∧
    x.op.operands.find? isNaN = some 0x7FF0000020000000#64 ∧ x.op.invalidBit = some 11) := by
  exact ⟨⟨_, rfl, representable_double rfl (by decide), by decide, by decide⟩,
    ⟨_, rfl, representable_single rfl (by decide), by decide, by decide⟩⟩

/-- A single-precision instruction with Rc = 1 on operands of single format. -/
theorem witness_FloatRecordAndDenormalOperand_single :
  floatRecords (.fadds 1 2 3 true) = true ∧ denormalForm start (.fadds 1 2 3 true) = none ∧
    ∀ x, fpForm start (.fadds 1 2 3 true) = some x → x.p = .single → x.representable := by
  refine ⟨by decide, by decide, fun x h hp => representable_single hp ?_⟩
  cases h; decide
theorem witness_FloatRecordAndDenormalOperand :
  (floatRecords (.fmr 1 2 true) = true ∧ denormalForm start (.fmr 1 2 true) = none ∧
    (∀ x, fpForm start (.fmr 1 2 true) = some x → x.p = .single → x.representable) ∧ start.excTaken = none ∧
    ∃ t, exec (.fmr 1 2 true) start = .next t ∧ t.excTaken ≠ some .before) ∧
  (let s := fpOn [(2, 1)]
   denormalForm s (.frsp 1 2 true) = some 2#3 ∧ msrFP s.msr = true ∧ s.sie = false ∧ s.inDebug = false) ∧
  (let s := withF { start with fpecr := 0x80000000#32 } [(2, 1), (4, 0x800FFFFFFFFFFFFF#64)]
   denormalForm s (.fmadd 1 2 3 4 true) = some 3#3 ∧ msrFP s.msr = true ∧ s.sie = true ∧
     ¬(msrFE s.msr = true ∧ bit s.fpscr 1 = true)) ∧
  (let s := withF { start with fpecr := 0x80000000#32 } [(2, 1)]
   ∃ x, fpMoveForm s (.fneg 1 2 false) = some x ∧ msrFP s.msr = true ∧ s.sie = true ∧ isDenormal x.source = true) := by
  refine ⟨⟨by decide, by decide, fun _ h => absurd h (by simp [fpForm]), by decide, _, rfl, by decide⟩, by decide, by decide, _, rfl, by decide⟩

/-- `withF` writes no register but the FPRs. -/
theorem withF_frame (l : List (Reg × Dword)) (s : State) :
    (withF s l).msr = s.msr ∧ (withF s l).sie = s.sie := by
  induction l generalizing s with
  | nil => exact ⟨rfl, rfl⟩
  | cons d l ih => exact ih _

/-- With exceptions ignored an instruction delivers whatever bits it sets. -/
theorem fpOn_plain (l : List (Reg × Dword)) (sets : List Nat) : (fpOn l).plainFloat sets := by
  obtain ⟨hm, hs⟩ := withF_frame l start
  refine ⟨?_, hs.trans (by decide), .inl ?_⟩ <;> (show _ = _; unfold fpOn; rw [hm]; decide)

/-- 0.1, and the smallest normalized single; a zero, an infinity, a quiet and a signalling NaN (for the enabled modes see
`witness_enableBits`). -/
theorem witness_RoundToSingleResult :
  (let s := fpOn [(2, 0x3FB999999999999A#64)]
   ∃ m e, (∀ sets, s.plainFloat sets) ∧ isDenormal (s.f 2) = false ∧ numOf (s.f 2) = .fin false m e ∧ m ≠ 0 ∧ -126 ≤ exponentOf m e ∧
     (roundTo .single (fpRN s.fpscr) false m e).exp ≤ 127) ∧
  (let s := fpOn [(2, 0xB810000000000000#64)]
   ∃ m e, (∀ sets, s.plainFloat sets) ∧ isDenormal (s.f 2) = false ∧ numOf (s.f 2) = .fin true m e ∧ m ≠ 0 ∧ -126 = exponentOf m e ∧
     (roundTo .single (fpRN s.fpscr) true m e).exp ≤ 127) ∧
  (let s := fpOn [(1, 0x7FF8000000000000#64), (2, 0xFFF7FFFFFFFFFFFF#64), (3, 0xFFF0000000000000#64)]
   isNaN (s.f 1) = true ∧ isSNaN (s.f 1) = false ∧ isNaN (s.f 2) = true ∧ isSNaN (s.f 2) = true ∧ isInf (s.f 3) = true ∧
     isZero (s.f 4) = true ∧ fpVE s.fpscr = false ∧ s.plainFloat [] ∧ s.plainFloat [7]) := by
  refine ⟨⟨_, _, fpOn_plain _, by decide, rfl, of_decide_eq_true rfl, of_decide_eq_true rfl, of_decide_eq_true rfl⟩,
    ⟨_, _, fpOn_plain _, by decide, rfl, of_decide_eq_true rfl, of_decide_eq_true rfl, of_decide_eq_true rfl⟩,
    by decide, by decide, by decide, by decide, by decide, by decide, by decide, fpOn_plain _ _, fpOn_plain _ _⟩

/-- Both ends of the range of a 32-bit number, and the numbers next to them: -2^31, 2^31 - 1, -2^31 - 1 and 2^31; an infinity and
both kinds of NaN; for the enabled modes of invalid operations see `witness_enableBits`. -/
theorem witness_ConvertToIntegerResult :
  let s := fpOn [(2, 0xC1E0000000000000#64), (3, 0x41DFFFFFFFC00000#64), (4, 0xC1E0000000200000#64), (5, 0x41E0000000000000#64),
    (7, 0x7FF0000000000000#64), (10, 0x7FF8000000000000#64), (11, 0x7FF0000000000001#64)]
  (∀ sets, s.plainFloat sets) ∧ fpVE s.fpscr = false ∧
  (isFinite (s.f 2) = true ∧ roundsTo 1#2 (fpValue (s.f 2)) (-2 ^ 31)) ∧
  (isFinite (s.f 3) = true ∧ roundsTo 1#2 (fpValue (s.f 3)) (2 ^ 31 - 1)) ∧
  (isFinite (s.f 4) = true ∧ roundsTo 1#2 (fpValue (s.f 4)) (-2 ^ 31 - 1)) ∧
  (isFinite (s.f 5) = true ∧ roundsTo 1#2 (fpValue (s.f 5)) (2 ^ 31)) ∧
  isInf (s.f 7) = true ∧ isNaN (s.f 10) = true ∧ (isNaN (s.f 11) = true ∧ isSNaN (s.f 11) = true) := by
  intro s
  have h2 : fpValue (s.f 2) = ((-2 ^ 31 : ℤ) : ℚ) := by
    rw [fpValue_normal (n := true) (e := 1054) (f := 0) (by decide) (by decide) (by decide) (by decide)]
    norm_num [signFactor]
  have h3 : fpValue (s.f 3) = ((2 ^ 31 - 1 : ℤ) : ℚ) := by
    rw [fpValue_normal (n := false) (e := 1053) (f := 4503599623176192) (by decide) (by decide) (by decide) (by decide)]
    norm_num [signFactor]
  have h4 : fpValue (s.f 4) = ((-2 ^ 31 - 1 : ℤ) : ℚ) := by
    rw [fpValue_normal (n := true) (e := 1054) (f := 2097152) (by decide) (by decide) (by decide) (by decide)]
    norm_num [signFactor]
  have h5 : fpValue (s.f 5) = ((2 ^ 31 : ℤ) : ℚ) := by
    rw [fpValue_normal (n := false) (e := 1054) (f := 0) (by decide) (by decide) (by decide) (by decide)]
    norm_num [signFactor]
  have exactly (v : ℚ) (n : ℤ) (h : v = n) : roundsTo 1#2 v n := by
    subst h; simp [roundsTo]
  refine ⟨fpOn_plain _, by decide, ⟨by decide, exactly _ _ h2⟩, ⟨by decide, exactly _ _ h3⟩, ⟨by decide, exactly _ _ h4⟩,
    ⟨by decide, exactly _ _ h5⟩, by decide, by decide, by decide⟩

/-- An inexact conversion, of 0.5, with its exception enabled in precise mode. -/
theorem witness_ConvertToIntegerResult_inexact :
  let s := fpAt 0x2800#32 0x08#32 0
  s.assists (inexactBit (decide (((0 : ℤ) : ℚ) ≠ fpValue (s.f 5)))) ∧ isFinite (s.f 5) = true ∧ roundsTo 1#2 (fpValue (s.f 5)) 0 ∧
    ((0 : ℤ) : ℚ) ≠ fpValue (s.f 5) := by
  intro s
  have h : fpValue (s.f 5) = 2⁻¹ := by
    rw [fpValue_pow 1022 (by decide) (by decide) (by decide) (by decide)]
    norm_num
  rw [h]
  refine ⟨?_, by decide, ?_, ?_⟩
  · rw [decide_eq_true (by norm_num)]
    exact ⟨preciseFloat_of _, 6, by decide, by decide⟩
  · norm_num [roundsTo]
  · norm_num

/-- Exceptions ignored, and an enabled invalid operation in precise mode (a signalling NaN). -/
theorem witness_FpCompareResult :
  (msrFP start.msr = true ∧ msrFE start.msr = false) ∧
  (let s := fpAt 0x2800#32 0x80#32 0
   s.preciseFloat ∧ fpVE s.fpscr = true ∧ isSNaN (s.f 10) = true) :=
  ⟨by decide, preciseFloat_of _, by decide, by decide⟩
/-- Without the program exception; and with FEX set in precise mode. -/
theorem witness_FpscrMoveResult :
  (∃ x, fpscrForm start (.mtfsb1 0 true) = some x) ∧ (∃ x, fpscrForm start (.mtfsf 0xFF 1 false) = some x) ∧
  (msrFP start.msr = true ∧ msrFE start.msr = false) ∧
  (let s := fpAt 0x2800#32 0x60000180#32 0
   msrFP s.msr = true ∧ msrFE s.msr = true ∧ s.inDebug = false ∧ s.fpscrSummed ∧ bit s.fpscr 1 = true) := by
  refine ⟨⟨_, rfl⟩, ⟨_, rfl⟩, by decide, by decide, by decide, by decide, ?_, by decide⟩
  unfold State.fpscrSummed; decide

theorem witness_BranchAlwaysResult : start.inDebug = false ∧ bits 0x4BFFFFF3#32 0 6 = 18#6 := by decide

/-- The CTR is 1 before; the link register and the count register as targets. -/
theorem witness_ConditionalBranchResult :
  (∃ x, branchForm { start with ctr := 1 } (.bc 0b00010#5 31 0x3FFF false true) = some x) ∧
  (∃ x, branchForm start (.bclr 0b10100#5 0 true) = some x) ∧ (∃ x, branchForm start (.bcctr 0b01100#5 2 false) = some x) ∧
  start.inDebug = false := ⟨⟨_, rfl⟩, ⟨_, rfl⟩, ⟨_, rfl⟩, by decide⟩

theorem witness_ConditionRegisterResult :
  (∃ x, crForm start (.crorc 31 0 31) = some x) ∧ bits 0x4CC63183#32 0 6 = 19#6 ∧ bits 0x4CC63183#32 21 10 = 193#10 :=
  ⟨⟨_, rfl⟩, by decide⟩

/-- No trap, and a trap at the boundary of the signed order. -/
theorem witness_TrapResult :
  (trapForm start (.tw 0b11011#5 3 4) = some (0b11011#5, 0, 0) ∧ ¬traps 0b11011#5 0 0) ∧
  (trapForm (withR start [(3, 0x80000000#32)]) (.twi 16 3 0x7FFF) = some (16#5, 0x80000000#32, 0x00007FFF#32) ∧
    traps 16#5 0x80000000#32 0x00007FFF#32 ∧ (withR start [(3, 0x80000000#32)]).inDebug = false) := by
  refine ⟨⟨by decide, ?_⟩, by decide, ?_, by decide⟩ <;> (unfold traps; decide)

/-- Debug mode is not enabled, and it is enabled with the bit of the exception set. -/
theorem witness_ExceptionEntry :
  start.inDebug = false ∧
  (let s := { start with debugEnabled := true, der := 0xFFFFFFFF#32 }
   s.inDebug = false ∧ s.debugEnabled = true ∧ bit s.der Exc.trace.causeBit = true) := by decide

/-- Without the program exception and with it. -/
theorem witness_SystemCallAndReturn :
  (start.inDebug = false ∧ msrPR start.msr = false ∧ within start.msr msrMask ∧
    ¬(msrFE start.srr1 = true ∧ bit start.fpscr 1 = true)) ∧
  (let s := { start with srr1 := 0x2800#32, fpscr := 0x60000080#32 }
   s.inDebug = false ∧ msrPR s.msr = false ∧ within s.msr msrMask ∧ msrFE s.srr1 = true ∧ bit s.fpscr 1 = true) := by
  unfold within; decide

/-- The privileged forms; registers missing in one direction, at the supervisor level and internal ones at the user level; an external
register with an error; other numbers of `mftb`. -/
theorem witness_PrivilegedAndUnimplementedRegisters :
  (privilegedForm (.mtspr 1022 3) = true ∧ privilegedForm .rfi = true ∧ msrPR userLevel.msr = true ∧
    userLevel.inDebug = false) ∧
  (sprReadable 80 = false ∧ sprReadable 284 = false ∧ sprWritable 287 = false ∧ sprWritable 562 = false ∧
    start.mayAccess 284 ∧ start.mayAccess 562 ∧ start.inDebug = false) ∧
  (sprReadable 1023 = false ∧ sprWritable 1023 = false ∧ sprExternal 1023 = false ∧ userLevel.mayAccess 268) ∧
  (let s := { userLevel with platform := { Platform.plain with sprErrors := [268#10, 22#10] } }
   sprExternal 268 = true ∧ (268#10 : BitVec 10) ∈ s.platform.sprErrors ∧ s.inDebug = false ∧ s.mayAccess 268) ∧
  ((267 : BitVec 10) ≠ 268#10 ∧ (270 : BitVec 10) ≠ 269#10) := by
  unfold State.mayAccess; decide
theorem witness_UserLevelCannotChangeSupervisor :
  msrPR userLevel.msr = true ∧ ∃ t, exec (.mtspr 1 3) userLevel = .next t ∧ userLevel.excTaken = none ∧ t.excTaken = none :=
  ⟨by decide, _, rfl, by decide, by decide⟩
theorem witness_RequestsInPriorityOrder :
  let q := { start with msr := 0x0000A002#32 }
  (q.events = [] ∧ q.intrusions = [] ∧ q.cutShort = false ∧ q.checkstop = false ∧ q.resetAsserted = false ∧ q.inDebug = false ∧ q.port.inbox = []) ∧
  (let s := { q with nmiPending := true, mebPending := true, irq := true, decPending := true }
   s.nmiPending = true ∧ s.nmiAtReset = false) ∧
  (let s := { q with mebPending := true, irq := true, decPending := true }
   s.nmiPending = false ∧ s.mebPending = true ∧ msrRI s.msr = true) ∧
  (let s := { q with irq := true, decPending := true }
   s.nmiPending = false ∧ ¬(s.mebPending = true ∧ msrRI s.msr = true) ∧ s.irq = true ∧ msrEE s.msr = true) ∧
  (let s := { q with decPending := true }
   s.nmiPending = false ∧ ¬(s.mebPending = true ∧ msrRI s.msr = true) ∧ s.irq = false ∧ s.decPending = true ∧
     msrEE s.msr = true) := by decide

theorem witness_TickCounts : start.checkstop = false := by decide

theorem witness_MoveFromSprResult :
  (∃ v, sprValue start 1022 = some v) ∧ (∃ v, sprValue userLevel 9 = some v) ∧ msrPR start.msr = false ∧ sprUser 9 ∧
    start.platform.sprErrors = [] ∧ bit start.icadr 18 = false ∧ bit { start with icadr := 0x2000#32 }.icadr 18 = true ∧
    start.inDebug = false ∧ { start with inDebug := true }.inDebug = true := by
  refine ⟨⟨_, rfl⟩, ⟨_, rfl⟩, by decide, ?_, by decide, by decide, by decide, by decide, by decide⟩
  unfold sprUser; decide
theorem witness_MoveToSprResult :
  (∃ k, sprStored 1 = some k) ∧ (∃ k, sprStored 156 = some k) ∧ msrPR start.msr = false ∧ start.platform.sprErrors = [] ∧
    ¬(sprDevelopment 156 = true ∧ start.debugEnabled = true ∧ start.inDebug = false) :=
  ⟨⟨_, rfl⟩, ⟨_, rfl⟩, by decide⟩
/-- Debug registers locked and not; a counter that the write does not make count; debug mode. -/
theorem witness_MoveToSprEffects :
  (msrPR start.msr = false ∧ start.platform.sprErrors = [] ∧ ¬start.locked ∧ start.inDebug = false) ∧
  (let s := { start with debugEnabled := true }
   sprDevelopment 144 = true ∧ sprDevelopment 159 = true ∧ s.locked ∧ msrPR s.msr = false) ∧
  (¬start.countsItself start.countA 0 ∧ ¬start.countsItself start.countB 1) ∧
  { start with inDebug := true }.inDebug = true ∧
  bits ((withR start [(3, 0x02000000#32)]).r 3) 4 3 = 1#3 ∧ bits ((withR start [(3, 0x04000000#32)]).r 3) 4 3 = 2#3 := by
  refine ⟨⟨by decide, by decide, ?_, by decide⟩, ⟨by decide, by decide, ?_, by decide⟩,
    ⟨fun h => absurd h.1 (by decide), fun h => absurd h.1 (by decide)⟩, by decide, by decide, by decide⟩ <;>
    (unfold State.locked; decide)
theorem witness_MachineRegisterMoves :
  (msrPR start.msr = false ∧ ¬(msrFE (start.r 3) = true ∧ bit start.fpscr 1 = true) ∧ 268#10 ∉ start.platform.sprErrors ∧
    269#10 ∉ start.platform.sprErrors) ∧
  (let s := withR { start with fpscr := 0x60000080#32 } [(3, 0x2100#32)]
   msrPR s.msr = false ∧ msrFE (s.r 3) = true ∧ bit s.fpscr 1 = true ∧ s.inDebug = false) := by decide

theorem witness_SynchronizationResult : State.reset.cacheSound := cacheSound_reset

/-- A line of the address 0x1230 in a way of its set (set 0x23, tag 2). -/
def lineAt (tag : BitVec 21) (lock : Bool) : CacheLine :=
  { tag := tag, valid := true, lock := lock, word0 := 1, word1 := 2, word2 := 3, word3 := 4 }

/-- The command `c` in r3 on the byte 0x1234, with the two ways of its set as given. -/
def commanding (c : Word) (way0 way1 : CacheLine) : State :=
  withR { start with
    icadr := 0x1234#32
    icache := ICache.empty.putSet (setOf 0x1234#32) { way0 := way0, way1 := way1, lru := false } } [(3, c)]

/-- A set is sound when it is, and all others are empty. -/
theorem commanding_sound (c : Word) (way0 way1 : CacheLine)
    (h : ¬(way0.valid = true ∧ way1.valid = true ∧ way0.tag = way1.tag) ∧ (way0.lock = true → way0.valid = true) ∧
      (way1.lock = true → way1.valid = true)) : (commanding c way0 way1).cacheSound := by
  intro k
  show _ ∧ _
  have hk : (commanding c way0 way1).icache.setAt k =
      if setOf 0x1234#32 = k then { way0 := way0, way1 := way1, lru := false } else CacheSet.empty := by
    show (ICache.empty.putSet _ _).setAt k = _
    unfold ICache.putSet ICache.setAt ICache.empty
    rw [Vector.getElem_set]
    simp [BitVec.toNat_inj]
  rw [hk]
  split
  · exact h
  · exact by decide

/-- Every command in a cache that is sound: the line in the arrays and not, both ways locked, a way that is not locked, a bus error
on the line, a cache-inhibited line. -/
theorem witness_CacheCommandResult :
  (let s := commanding 0x06000000#32 (lineAt 2 false) (lineAt 3 true)
   msrPR s.msr = false ∧ s.platform.sprErrors = [] ∧ s.cacheSound ∧ s.cached s.icadr) ∧
  (let s := commanding 0x06000000#32 (lineAt 1 true) (lineAt 3 true)
   bits (s.r 3) 4 3 = 3#3 ∧ s.cacheSound ∧ ¬s.cached s.icadr ∧ ∀ way, (s.lineOfSet (setOf s.icadr) way).lock = true) ∧
  (let s := commanding 0x06000000#32 .empty (lineAt 3 true)
   s.cacheSound ∧ ¬s.cached s.icadr ∧ ¬(∀ way, (s.lineOfSet (setOf s.icadr) way).lock = true) ∧ ¬s.lineFails s.icadr ∧
     s.cacheInhibited s.icadr = false) ∧
  (let s := { commanding 0x06000000#32 .empty .empty with platform := errorFetch }
   ¬s.cached s.icadr ∧ ¬(∀ way, (s.lineOfSet (setOf s.icadr) way).lock = true) ∧ s.lineFails s.icadr) ∧
  (let s := { commanding 0x06000000#32 .empty .empty with platform := { Platform.plain with
      map := [{ first := 0, last := 0xFFFFFFFF#32, errFetch := false, errLoad := false, errStore := false, inhibited := true }] } }
   ¬s.cached s.icadr ∧ ¬(∀ way, (s.lineOfSet (setOf s.icadr) way).lock = true) ∧ ¬s.lineFails s.icadr ∧
     s.cacheInhibited s.icadr = true) ∧
  (bits 0x08000000#32 4 3 = 4#3 ∧ bits 0x0A000000#32 4 3 = 5#3 ∧ bits 0x0C000000#32 4 3 = 6#3 ∧
    bits 0x00000000#32 4 3 = 0#3 ∧ bits 0x0E000000#32 4 3 = 7#3 ∧ bits 0x04000000#32 4 3 = 2#3) := by
  refine ⟨⟨by decide, by decide, commanding_sound _ _ _ (by decide), false, by decide⟩,
    ⟨by decide, commanding_sound _ _ _ (by decide), ?_, by decide⟩,
    ⟨commanding_sound _ _ _ (by decide), ?_, by decide, ?_, by decide⟩, ⟨?_, by decide, 0, by decide⟩,
    ⟨?_, by decide, ?_, by decide⟩, by decide⟩ <;>
    first | (unfold State.cached; decide) | (unfold State.lineFails; decide)

/-- A load, a store without and a store with a reservation of another granule. -/
theorem witness_ReservationResult :
  ((start.eaX 0 4).toNat % 4 = 0 ∧ start.accessible .load (start.eaX 0 4) 4 ∧ start.reservation = none) ∧
  (let s := { start with reservation := some 5 }
   (s.eaX 0 4).toNat % 4 = 0 ∧ s.reservation ≠ none ∧ s.memoryCanonical ∧ s.accessible .store (s.eaX 0 4) 4) := by
  refine ⟨⟨by decide, ?_, by decide⟩, by decide, by decide, ?_, ?_⟩ <;>
    first | (unfold State.memoryCanonical; decide) | (unfold State.accessible; decide)

/-- Debug mode with `t` sent by the development tool and the latches of the port as given. -/
def debugging (t : List Transmission) (exc : Bool) (wait : Option Reg) : State :=
  { start with inDebug := true, debugEnabled := true, port := { Port.idle with inbox := t, exc := exc, wait := wait } }

/-- Nothing sent; an instruction that stays in debug mode and one that leaves it; a word that is none; a latched exception; an
instruction where data was awaited; the data. -/
theorem witness_DebugModeRunsFromPort :
  (let s := debugging [] false none
   s.events = [] ∧ s.intrusions = [] ∧ s.cutShort = false ∧ s.checkstop = false ∧ s.resetAsserted = false ∧
     s.inDebug = true ∧ s.port.inbox = []) ∧
  (let s := debugging [.cpuInstr 0x38630001#32] false none
   s.port.data = none ∧ s.port.seq = false ∧ s.port.exc = false ∧ s.port.wait = none ∧
     decode 0x38630001#32 = .ok (.addi 3 3 1) ∧
     (∃ t, step s = .next t ∧ t.inDebug = true) ∧
     ∃ t, exec (.addi 3 3 1) { s.fresh with port := { s.port with inbox := [], reply := some .null } } = .next t ∧
       bit t.lctrl2 0 = false ∧ bit t.lctrl2 10 = false ∧ t.intrusions = [] ∧ (t.irq && msrEE t.msr) = false ∧
       (t.decPending && msrEE t.msr) = false ∧ t.inDebug = true) ∧
  (let s := debugging [.cpuInstr 0x4C000064#32] false none
   decode 0x4C000064#32 = .ok .rfi ∧
     ∃ t, exec .rfi { s.fresh with port := { s.port with inbox := [], reply := some .null } } = .next t ∧
       bit t.lctrl2 0 = false ∧ bit t.lctrl2 10 = false ∧ t.inDebug = false) ∧
  (let s := debugging [.cpuInstr 0] false none
   decode 0 = .error .unusedPrimary ∧ (s.irq && msrEE s.msr) = false ∧ (s.decPending && msrEE s.msr) = false) ∧
  ((debugging [.cpuInstr 0] true none).port.exc = true ∧ (debugging [.cpuInstr 0] true none).port.wait = none) ∧
  ((debugging [.cpuInstr 0] false (some 3)).port.exc = false ∧ (debugging [.cpuInstr 0] false (some 3)).port.wait ≠ none) ∧
  (let s := debugging [.cpuData 7, .cpuData 8] false (some 31)
   s.port.inbox = .cpuData 7 :: [.cpuData 8] ∧ s.port.wait = some 31 ∧ s.port.data = none ∧ s.port.seq = false ∧
     s.port.exc = false) ∧
  (let s := debugging [.cpuData 7, .trapEnable true 0x60#7] false none
   s.port.inbox = .cpuData 7 :: [.trapEnable true 0x60#7] ∧ s.port.data = none ∧ s.port.seq = false ∧ s.port.exc = false ∧
     s.port.wait = none) ∧
  ((debugging [.trapEnable true 0x60#7] false (some 3)).port.inbox = [.trapEnable true 0x60#7] ∧
   (debugging [.trapEnable false 0x7F#7] false none).port.inbox = [.trapEnable false 0x7F#7]) := by
  refine ⟨by decide, ⟨by decide, by decide, by decide, by decide, by decide, ⟨_, rfl, by decide⟩, _, rfl, by decide, by decide,
    by decide, by decide, by decide, by decide⟩, ⟨by decide, _, rfl, by decide, by decide, by decide⟩, by decide, by decide,
    by decide, by decide, by decide, by decide⟩

end Sys2Proof.Tests
end

/-! Special registers: what a move from one does to the state. -/

namespace Sys2Proof.Proofs

open Sys2Proof Sys2Proof.Machine Sys2Proof.Laws

/-! Watchpoints of the instruction at CIA (61_development_support.md R734, R735). -/

/-- The event of a comparator is the comparison that its type names. -/
theorem compareEvent_iff (ct : BitVec 3) (v c : Int) : compareEvent ct v c = true ↔ comparesAs ct v c := by
  unfold compareEvent comparesAs
  split_ifs with h4 h5 h6 h7 <;> simp [*]

/-- The word address: bits 0 to 29. -/
theorem toNat_wordAddress (w : Word) : (bits w 0 30).toNat = w.toNat / 4 := by
  simp only [bits, BitVec.extractLsb'_toNat, Nat.shiftRight_eq_div_pow]
  have := w.isLt
  omega

theorem iEvent_iff (s : State) (k : Nat) (cmp : Word) : s.iEvent k cmp = true ↔ s.comparatorHolds k cmp := by
  rw [State.iEvent, compareEvent_iff, toNat_wordAddress, toNat_wordAddress]
  rfl

theorem watchOf_iff (sel : BitVec 2) (one both : Bool) :
    watchOf sel one both = true ↔ (sel = 2#2 ∧ one = true) ∨ (sel = 3#2 ∧ both = true) := by
  unfold watchOf
  split_ifs with h2 h3 <;> simp [*]

/-- Outside debug mode a watchpoint is asserted as ICTRL programs it. -/
theorem iWatch_iff (s : State) (k : Nat) : s.iWatch k = true ↔ s.inDebug = false ∧ s.watchesInstr k := by
  match k with
  | 0 | 1 | 2 | _ + 3 => simp [State.iWatch, State.watchesInstr, watchOf_iff, iEvent_iff]

theorem brkUnmasked_iff (s : State) : s.brkUnmasked = true ↔ s.unmasked := by
  simp [State.brkUnmasked, State.unmasked]

/-- A counter counts its own access exactly when the instruction at CIA is one that it counts (R743). -/
theorem countsOwnAccess_iff (s : State) (counter : Word) (k : Nat) :
    s.countsOwnAccess counter k = true ↔ s.countsItself counter k := by
  simp only [State.countsOwnAccess, State.countsItself, Bool.and_eq_true, iWatch_iff, brkUnmasked_iff, beq_iff_eq, countsI]
  tauto

/-! Moves from special registers (49_processor_control_sync_cache.md R587 to R589). -/

/-- A user-level register is no supervisor register. -/
theorem sprLevel_allows {s : State} {n : BitVec 10} (h : msrPR s.msr = false ∨ sprUser n) :
    (msrPR s.msr && sprSupervisor n) = false := by
  rcases h with h | h | h | h
  · simp [h]
  all_goals subst h; simp [sprSupervisor]

/-- Without failing addresses no access to an external register ends in a bus error. -/
theorem sprError_none {s : State} (n : BitVec 10) (h : s.platform.sprErrors = []) :
    (sprExternal n && s.platform.sprErrors.contains n) = false := by
  simp [h]

/-- A permitted move from a special register delivers what the read gives in the state that the read leaves. -/
theorem exec_mfspr {s : State} {n : BitVec 10} (rD : Reg) (hr : sprReadable n = true)
    (hl : (msrPR s.msr && sprSupervisor n) = false) (he : (sprExternal n && s.platform.sprErrors.contains n) = false)
    (hd : ¬(n = 630 ∧ s.inDebug = true)) :
    exec (.mfspr rD n) s = .next ((s.readSpr n).2.setR rD (s.readSpr n).1).advance := by
  change execMfspr rD n s = _
  rw [execMfspr, sprAccess_allowed _ hr hl he, if_neg hd]
  rfl

/-- In debug mode a move from DPDR waits for the port. -/
theorem exec_mfspr_dpdr_inDebug {s : State} (rD : Reg) (hl : msrPR s.msr = false) (he : s.platform.sprErrors = [])
    (hd : s.inDebug = true) :
    exec (.mfspr rD 630) s = .next { s with port := { s.port with wait := some rD }, pc := s.pc + 4 } := by
  change execMfspr rD 630 s = _
  rw [execMfspr, sprAccess_allowed _ (by decide) (sprLevel_allows (.inl hl)) (sprError_none _ he), if_pos ⟨rfl, hd⟩]
  rfl

@[simp] theorem advance_r (s : State) (n : Reg) : s.advance.r n = s.r n := rfl

/-- A register write changes no other general register. -/
theorem sameGprsBut_setR {s u : State} (rD : Reg) (v : Word) (h : u.gpr = s.gpr) :
    sameGprsBut s (u.setR rD v).advance [rD] := by
  intro m hm
  rw [advance_r, r_setR_ne _ _ (by simpa using hm), r_congr h]

theorem spr_eq_of_toNat {n : BitVec 10} {k : Nat} (h : n.toNat = k) : n = BitVec.ofNat 10 k := by
  subst h; simp

/-- The registers of `sprValue` are readable, and a read delivers them and changes nothing. -/
theorem readSpr_of_sprValue {s : State} {n : BitVec 10} {v : Word} (h : sprValue s n = some v) :
    s.readSpr n = (v, s) ∧ sprReadable n = true ∧ n ≠ 630 := by
  unfold sprValue at h
  split at h <;> cases h
  all_goals
    rename_i hn
    obtain rfl := spr_eq_of_toNat hn
    exact ⟨rfl, by decide, by decide⟩

theorem readEcr_eq (s : State) :
    s.readSpr 148 = (s.ecr, { s with ecr := if s.debugEnabled && !s.inDebug then s.ecr else 0 }) := by
  change (s.ecr, if s.developmentLocked then s else { s with ecr := 0 }) = _
  unfold State.developmentLocked
  split <;> rfl

/-- ICDAT gives the word that ICADR selects, or the tag word. -/
theorem readIcdat_data {s : State} (h : bit s.icadr 18 = true) :
    let l := (s.icache.setAt (bits s.icadr 21 7)).way (bit s.icadr 19)
    some s.readIcdat = [l.word0, l.word1, l.word2, l.word3][(bits s.icadr 28 2).toNat]? := by
  simp only [State.readIcdat, h, if_true, CacheLine.pick, pickWord]
  generalize bits s.icadr 28 2 = k
  obtain rfl | rfl | rfl | rfl : k = 0#2 ∨ k = 1#2 ∨ k = 2#2 ∨ k = 3#2 := by revert k; decide
  all_goals rfl

theorem readIcdat_tag {s : State} (h : bit s.icadr 18 = false) :
    let x := s.icache.setAt (bits s.icadr 21 7)
    let l := x.way (bit s.icadr 19)
    s.readIcdat = tagWord l.tag l.valid l.lock x.lru := by
  simp [State.readIcdat, h]

theorem tagWord_fields (tag : BitVec 21) (valid lock lru : Bool) :
    bits (tagWord tag valid lock lru) 0 21 = tag ∧ bit (tagWord tag valid lock lru) 22 = valid ∧
      bit (tagWord tag valid lock lru) 23 = lock ∧ bit (tagWord tag valid lock lru) 24 = lru := by
  refine ⟨BitVec.eq_of_getLsbD_eq fun i hi => ?_, ?_, ?_, ?_⟩
  · rw [bits_getLsbD _ _ _ _ hi (by decide)]
    simp only [tagWord, bit, BitVec.getLsbD_append, show 31 - (0 + 21 - 1 - i) = i + 11 by omega]
    simp
  all_goals simp only [tagWord, bit, BitVec.getLsbD_append]; simp

/-! The counters (61_development_support.md R743). -/

/-- An access that does not make the counter count leaves its value. -/
theorem selfCount_off (s : State) (v : Word) : s.selfCount false v = (v, s) := rfl

/-- An access to a counter leaves CNTC, and changes nothing but the count of free values. -/
theorem selfCount_frame (s : State) (own : Bool) (v : Word) :
    bits (s.selfCount own v).1 16 16 = bits v 16 16 ∧
      (s.selfCount own v).2 = { s with freeCount := (s.selfCount own v).2.freeCount } := by
  cases own
  · exact ⟨rfl, rfl⟩
  · refine ⟨bits_congr (by decide) fun k h16 h32 => ?_, rfl⟩
    have hm : bit 0xFFFF0000#32 k = false := by interval_cases k <;> rfl
    exact (bit_insertBits _ _ _ _).trans (by simp [hm])

/-- A read of COUNTA that it does not count delivers it and changes nothing. -/
theorem readCountA_plain {s : State} (h : ¬s.countsItself s.countA 0) : s.readCountA = (s.countA, s) := by
  rw [← countsOwnAccess_iff, Bool.not_eq_true] at h
  simp only [State.readCountA, h, selfCount_off]

theorem readCountB_plain {s : State} (h : ¬s.countsItself s.countB 1) : s.readCountB = (s.countB, s) := by
  rw [← countsOwnAccess_iff, Bool.not_eq_true] at h
  simp only [State.readCountB, h, selfCount_off]

/-- The draw that is delivered and the draw that is left in the register: CNTC is as it was in both. -/
theorem selfCount_twice_frame (s : State) (own : Bool) (v : Word) :
    let a := s.selfCount own v
    let b := a.2.selfCount own a.1
    bits b.1 16 16 = bits v 16 16 ∧ b.2 = { s with freeCount := b.2.freeCount } := by
  obtain ⟨hv, hs⟩ := selfCount_frame s own v
  obtain ⟨hv', hs'⟩ := selfCount_frame (s.selfCount own v).2 own (s.selfCount own v).1
  refine ⟨hv'.trans hv, hs'.trans ?_⟩
  rw [hs]

/-- Any read of COUNTA delivers CNTC as it is and changes nothing but COUNTA and the count of free values. -/
theorem readCountA_frame (s : State) :
    bits s.readCountA.1 16 16 = bits s.countA 16 16 ∧
      s.readCountA.2 = { s with countA := s.readCountA.2.countA, freeCount := s.readCountA.2.freeCount } := by
  obtain ⟨hv, hs⟩ := selfCount_twice_frame s (s.countsOwnAccess s.countA 0) s.countA
  exact ⟨hv, congrArg (fun t : State => { t with countA := s.readCountA.2.countA }) hs⟩

theorem readCountB_frame (s : State) :
    bits s.readCountB.1 16 16 = bits s.countB 16 16 ∧
      s.readCountB.2 = { s with countB := s.readCountB.2.countB, freeCount := s.readCountB.2.freeCount } := by
  obtain ⟨hv, hs⟩ := selfCount_twice_frame s (s.countsOwnAccess s.countB 1) s.countB
  exact ⟨hv, congrArg (fun t : State => { t with countB := s.readCountB.2.countB }) hs⟩

/-- A move that delivers `v` in the state `u`, where these are a counter's read: what it does, by the facts about that read. -/
theorem mfspr_counter {s u : State} {rD : Reg} {n : BitVec 10} {v c : Word} {k : Nat}
    (hx : exec (.mfspr rD n) s = .next (u.setR rD v).advance) (hv : bits v 16 16 = bits c 16 16)
    (hu : u = { s with
      freeCount := u.freeCount
      countA := if k = 0 then u.countA else s.countA, countB := if k = 1 then u.countB else s.countB })
    (hplain : ¬s.countsItself c k → v = c ∧ u = s) :
    ∃ t, exec (.mfspr rD n) s = .next t ∧ bits (t.r rD) 16 16 = bits c 16 16 ∧ sameGprsBut s t [rD] ∧
      (¬s.countsItself c k → t.r rD = c ∧ t = { s with gpr := t.gpr, pc := s.pc + 4 }) ∧
      t = { s with
        gpr := t.gpr, pc := s.pc + 4, freeCount := t.freeCount
        countA := if k = 0 then t.countA else s.countA, countB := if k = 1 then t.countB else s.countB } := by
  have hg : u.gpr = s.gpr := by rw [hu]
  refine ⟨_, hx, by rwa [advance_r, r_setR_same], sameGprsBut_setR rD v hg, fun h => ?_, ?_⟩
  · obtain ⟨rfl, rfl⟩ := hplain h
    exact ⟨r_setR_same u rD v, rfl⟩
  · exact congrArg (fun w : State => { w with gpr := (u.setR rD v).gpr, pc := w.pc + 4 }) hu

/-- Settles O53: a permitted move runs `readSpr`, whose result and frame each kind of register gives. -/
theorem moveFromSprResult : Obligations.MoveFromSprResult := by
  refine ⟨?value, ?ecr, ?iccst, ?icdat, ?counter, ?dpdr⟩
  case value =>
    intro rD n v s hv hl he
    obtain ⟨hread, hr, hn⟩ := readSpr_of_sprValue hv
    refine ⟨(s.setR rD v).advance, ?_, r_setR_same s rD v, sameGprsBut_setR rD v rfl, sameMemory_of_mem rfl, rfl⟩
    rw [exec_mfspr rD hr (sprLevel_allows hl) (sprError_none n he) (fun h => hn h.1), hread]
  case ecr =>
    intro rD s hp
    have hx := exec_mfspr (n := 148) rD (by decide) (sprLevel_allows (.inl hp)) (by rfl) (by simp)
    rw [readEcr_eq] at hx
    exact ⟨_, hx, r_setR_same _ rD _, sameGprsBut_setR rD _ rfl, rfl⟩
  case iccst =>
    intro rD s hp he
    have hx := exec_mfspr (n := 560) rD (by decide) (sprLevel_allows (.inl hp)) (sprError_none _ he) (by simp)
    exact ⟨_, hx, r_setR_same _ rD _, sameGprsBut_setR rD _ rfl, rfl⟩
  case icdat =>
    intro rD s hp he
    have hx := exec_mfspr (n := 562) rD (by decide) (sprLevel_allows (.inl hp)) (sprError_none _ he) (by simp)
    refine ⟨_, hx, sameGprsBut_setR rD _ rfl, rfl, fun hd => ?_, fun ht => ?_⟩
    · rw [advance_r, r_setR_same]
      exact readIcdat_data hd
    · rw [advance_r, r_setR_same]
      change bits s.readIcdat 0 21 = _ ∧ bit s.readIcdat 22 = _ ∧ bit s.readIcdat 23 = _ ∧ bit s.readIcdat 24 = _
      rw [readIcdat_tag ht]
      exact tagWord_fields ..
  case counter =>
    rintro rD s n c k hp (⟨rfl, rfl, rfl⟩ | ⟨rfl, rfl, rfl⟩)
    · obtain ⟨hv, hs⟩ := readCountA_frame s
      exact mfspr_counter (exec_mfspr rD (by decide) (sprLevel_allows (.inl hp)) rfl (by simp)) hv hs
        fun h => Prod.ext_iff.mp (readCountA_plain h)
    · obtain ⟨hv, hs⟩ := readCountB_frame s
      exact mfspr_counter (exec_mfspr rD (by decide) (sprLevel_allows (.inl hp)) rfl (by simp)) hv hs
        fun h => Prod.ext_iff.mp (readCountB_plain h)
  case dpdr =>
    intro rD s hp he
    refine ⟨fun hd => ?_, exec_mfspr_dpdr_inDebug rD hp he⟩
    have hx := exec_mfspr (n := 630) rD (by decide) (sprLevel_allows (.inl hp)) (sprError_none _ he) (by simp [hd])
    exact ⟨_, hx, sameGprsBut_setR rD _ rfl, rfl⟩

end Sys2Proof.Proofs

/-! Exception entries (60_exceptions.md R652 to R655). -/

namespace Sys2Proof.Proofs

open Sys2Proof Sys2Proof.Machine Sys2Proof.Laws

/-- The bits of MSR after an entry: ILE, ME and IP stay, LE is the old ILE, a machine check clears ME (R652). -/
theorem bit_entryMsr (x : Exc) (m : Word) (k : Nat) (hk : k < 32) :
    bit (x.entryMsr m) k =
      if k = 31 then msrILE m
      else if k = 19 ∧ x = .machineCheck then false
      else bit m k && decide (k = 15 ∨ k = 19 ∨ k = 25) := by
  have hmask : bit 0x00011040#32 k = decide (k = 15 ∨ k = 19 ∨ k = 25) := by interval_cases k <;> rfl
  unfold Exc.entryMsr
  dsimp only
  rw [bit_setBit _ _ _ _ (by decide) hk]
  by_cases hx : x = .machineCheck
  · simp only [hx, if_true, bit_setBit _ 19 k false (by decide) hk, bit_and, hmask, and_true]
  · simp only [hx, if_false, bit_and, hmask, and_false]

theorem within_entryMsr (x : Exc) (m : Word) : within (x.entryMsr m) msrMask := by
  rw [within_iff]
  intro k hk
  rw [bit_entryMsr x m k hk]
  split_ifs with h31 h19
  · subst h31; exact fun _ => rfl
  · simp
  · intro h
    obtain rfl | rfl | rfl := of_decide_eq_true (Bool.and_eq_true_iff.mp h).2 <;> rfl

theorem enteredMsr_entryMsr (x : Exc) (m : Word) : enteredMsr x m (x.entryMsr m) := by
  unfold enteredMsr msrEE msrPR msrFP msrFE0 msrSE msrBE msrFE1 msrRI msrLE msrILE msrIP msrME
  simp [bit_entryMsr, within_entryMsr, msrILE]

/-- Taking an exception outside debug mode is the entry that R653 describes. -/
theorem take_enters (x : Exc) (srr0 : Word) (info : BitVec 16) {s : State} (h : s.inDebug = false) :
    enters x srr0 info s (s.take x srr0 info) := by
  have heq := takeVia_eq s x x.causeBit srr0 info h
  refine ⟨?_, ?_, ?_⟩
  · unfold State.take entersRegisters
    rw [heq]
    exact ⟨rfl, (srr1Of_bits info s.msr).1, (srr1Of_bits info s.msr).2, enteredMsr_entryMsr x s.msr,
      rfl, rfl, rfl, rfl, rfl, rfl, rfl, rfl, rfl⟩
  · unfold State.take entersAt
    split
    case isTrue hd => exact takeVia_debug x srr0 info h hd.1 hd.2
    case isFalse hd => exact takeVia_vector x srr0 info h hd
  · have hm : (s.take x srr0 info).mem = s.mem := by
      unfold State.take
      rw [heq]
    exact sameMemory_of_mem hm

/-- An exception that an instruction raises before it has an effect. -/
theorem raises_of_exec {x : Exc} {i : Instr} {s : State} (hx : exec i s = raise x s) (hc : x.classOf 0 = .before)
    (h : s.inDebug = false) : raises x 0 i s := by
  refine ⟨s.take x s.pc 0, hx, take_enters x s.pc 0 h, ?_⟩
  have heq := congrArg State.excTaken (takeVia_eq s x x.causeBit s.pc 0 h)
  exact heq.trans (congrArg some hc)

end Sys2Proof.Proofs

/-! Floating-point instructions: the record in CR1, the cause bits of FPECR, and denormalized operands. -/

namespace Sys2Proof.Proofs

open Sys2Proof Sys2Proof.Machine Sys2Proof.Laws

/-! The cause bits of FPECR (10_state.md R57). -/

theorem setCauses_eq (s : State) (dnc dnb dna tr : Bool) :
    s.setCauses dnc dnb dna tr = { s with fpecr := (s.setCauses dnc dnb dna tr).fpecr } := by
  unfold State.setCauses
  split <;> rfl

theorem bit_causeField (k : Nat) (hk : k < 32) : bit 0xF#32 k = decide (28 ≤ k) := by
  interval_cases k <;> rfl

/-- Writing the last four bits of a word. -/
theorem bits_insertCauses (w : Word) (v : BitVec 4) :
    bits (insertBits w 0xF#32 (v.setWidth 32)) 28 4 = v ∧
      bits (insertBits w 0xF#32 (v.setWidth 32)) 0 28 = bits w 0 28 := by
  refine ⟨BitVec.eq_of_getLsbD_eq fun i hi => ?_, bits_congr (by decide) fun k _ hk => ?_⟩
  · rw [bits_getLsbD _ _ _ _ hi (by decide), bit_insertBits, bit_causeField _ (by omega), if_pos (by simp; omega)]
    simp [bit, show 31 - (31 - i) = i by omega, show i < 32 by omega]
  · rw [bit_insertBits, bit_causeField _ (by omega), if_neg (by simp; omega)]

/-- In SIE mode the cause bits are written and the rest of FPECR stays; outside it FPECR stays. -/
theorem causesAre_setCauses {s t : State} (dnc dnb dna tr : Bool) (h : t.fpecr = s.fpecr) :
    causesAre dnc dnb dna tr s (t.setCauses dnc dnb dna tr) := by
  have hsie : t.sie = s.sie := congrArg (bit · 0) h
  unfold causesAre State.setCauses
  cases hs : s.sie
  · simpa [hsie, hs] using h
  · simp only [hsie, hs, if_true, ← h]
    exact bits_insertCauses _ _

/-- Writing the cause bits does not leave SIE mode. -/
theorem setCauses_sie (s : State) (dnc dnb dna tr : Bool) : (s.setCauses dnc dnb dna tr).sie = s.sie := by
  unfold State.setCauses State.sie
  split
  · exact (bit_insertBits _ _ _ _).trans (if_neg (by decide))
  · rfl

/-! Exceptions keep CR and FPSCR. -/

/-- Taking an exception, in debug mode or outside it, leaves CR and the FPSCR and notes its class. -/
theorem takeVia_keeps (s : State) (x : Exc) (causeBit : Nat) (srr0 : Word) (info : BitVec 16) :
    (s.takeVia x causeBit srr0 info).cr = s.cr ∧ (s.takeVia x causeBit srr0 info).fpscr = s.fpscr ∧
      (s.takeVia x causeBit srr0 info).excTaken = some (x.classOf info) := by
  cases h : s.inDebug
  · rw [takeVia_eq s x causeBit srr0 info h]
    exact ⟨rfl, rfl, rfl⟩
  · rw [takeVia_inDebug x causeBit srr0 info h]
    exact ⟨rfl, rfl, rfl⟩

theorem fpEnabledTest_keeps (s : State) (srr0 : Word) (info : BitVec 16) :
    (s.fpEnabledTest srr0 info).cr = s.cr ∧ (s.fpEnabledTest srr0 info).fpscr = s.fpscr := by
  unfold State.fpEnabledTest
  split
  · obtain ⟨hcr, hf, -⟩ := takeVia_keeps s .program Exc.program.causeBit srr0 info
    exact ⟨hcr, hf⟩
  · exact ⟨rfl, rfl⟩

/-! The record in CR1 (00_scope.md R12). -/

/-- CR1 copies FPSCR[0:3]. -/
def Cr1Copies (t : State) : Prop := crField t.cr 1 = bits t.fpscr 0 4

/-- A result that copies FPSCR[0:3] to CR1, but for an exception of class Before. -/
def Records (r : Result) : Prop := ∀ t, r = .next t → t.excTaken ≠ some .before → Cr1Copies t

theorem Cr1Copies.congr {s t : State} (h : Cr1Copies s) (hcr : t.cr = s.cr) (hf : t.fpscr = s.fpscr) : Cr1Copies t := by
  unfold Cr1Copies at *
  rw [hcr, hf, h]

theorem cr1Copies_recordFp (s : State) : Cr1Copies (s.recordFp true) := by
  simp [Cr1Copies, State.recordFp, State.setCr]

theorem Cr1Copies.setCauses {s : State} (h : Cr1Copies s) (dnc dnb dna tr : Bool) :
    Cr1Copies (s.setCauses dnc dnb dna tr) :=
  h.congr (setCauses_cr ..) (setCauses_fpscr ..)

theorem Cr1Copies.fpEnabledTest {s : State} (h : Cr1Copies s) (srr0 : Word) (info : BitVec 16) :
    Cr1Copies (s.fpEnabledTest srr0 info) :=
  h.congr (fpEnabledTest_keeps s srr0 info).1 (fpEnabledTest_keeps s srr0 info).2

theorem cr1Copies_deliverResult (s : State) (frD : Reg) (r : FpResult) : Cr1Copies (s.deliverResult frD true r) :=
  cr1Copies_recordFp _

theorem records_next {t : State} (h : Cr1Copies t) : Records (.next t) := by
  rintro u ⟨⟩ -
  exact h

theorem records_raise {x : Exc} (s : State) (h : x.classOf 0 = .before) : Records (raise x s) := by
  rintro u ⟨⟩ hu
  obtain ⟨-, -, hexc⟩ := takeVia_keeps s x x.causeBit s.pc 0
  exact absurd (hexc.trans (congrArg some h)) hu

theorem records_fpAvailable {s : State} {k : State → Result} (h : Records (k s)) : Records (fpAvailable s k) := by
  unfold fpAvailable
  split
  · exact h
  · exact records_raise s rfl

theorem records_finishFp {s : State} (h : Cr1Copies s) : Records (finishFp s) := by
  unfold finishFp
  dsimp only
  split
  · exact records_next ((h.congr rfl rfl : Cr1Copies s.advance).fpEnabledTest _ _)
  · exact records_next (h.congr rfl rfl)

theorem records_finishOutcome (o : FpOutcome) (frD : Reg) (s : State) : Records (finishOutcome o frD true s) := by
  cases o with
  | assist => exact records_raise s rfl
  | result r => exact records_finishFp (cr1Copies_deliverResult s frD r)

/-- Arithmetic on operands that it computes with. -/
theorem records_fpArith {op : FpOp} {p : Precision} (neg : Bool) (frD : Reg) {s : State}
    (hs : ¬(p = .single ∧ (!op.operands.all singleOK) = true))
    (hd : ¬(p = .double ∧ op.operands.any isDenormal = true)) : Records (fpArith op p neg frD true s) := by
  refine records_fpAvailable ?_
  rw [if_neg hs, if_neg hd]
  exact records_finishOutcome _ frD s

theorem records_frsp {frD frB : Reg} {s : State} (hd : isDenormal (s.f frB) = false) :
    Records (execFrsp frD frB true s) := by
  refine records_fpAvailable ?_
  rw [if_neg (by simp [hd])]
  exact records_finishOutcome _ frD s

theorem records_convertToIntWord (mode : BitVec 2) (frD frB : Reg) (s : State) :
    Records (convertToIntWord mode frD frB true s) := by
  refine records_fpAvailable ?_
  dsimp only
  split
  · exact records_raise s rfl
  · exact records_finishFp ((cr1Copies_deliverResult _ frD _).setCauses ..)

theorem records_fpMove (v : Dword) (frD : Reg) (s : State) : Records (fpMove v frD true s) :=
  records_fpAvailable (records_next ((cr1Copies_recordFp _).congr rfl rfl))

theorem records_mffs (frD : Reg) (s : State) : Records (execMffs frD true s) :=
  records_fpAvailable (records_next (((cr1Copies_recordFp _).setCauses ..).congr rfl rfl))

theorem records_movedToFpscr (f : Word) (s : State) : Records (movedToFpscr f true s) :=
  records_next (((((cr1Copies_recordFp _).setCauses ..).congr rfl rfl : Cr1Copies (State.advance _))).fpEnabledTest _ _)

/-! The instructions by their forms. -/

theorem exec_fpForm {i : Instr} {s : State} {x : FpForm} (h : fpForm s i = some x) :
    exec i s = fpArith x.op x.p x.neg x.frD x.rc s := by
  unfold fpForm at h
  split at h <;> cases h <;> rfl

theorem records_fpscrForm {i : Instr} {s : State} {x : FpscrForm} (h : fpscrForm s i = some x) (hrc : x.rc = true) :
    Records (exec i s) := by
  unfold fpscrForm at h
  split at h <;> cases h <;> cases hrc
  case h_1 crfD imm =>
    change Records (execMtfsfi crfD imm true s)
    exact records_fpAvailable (records_movedToFpscr _ s)
  case h_2 fm frB =>
    change Records (execMtfsf fm frB true s)
    exact records_fpAvailable (records_movedToFpscr _ s)
  case h_3 crbD =>
    change Records (execMtfsb0 crbD true s)
    exact records_fpAvailable (records_movedToFpscr _ s)
  case h_4 crbD =>
    change Records (execMtfsb1 crbD true s)
    exact records_fpAvailable (records_movedToFpscr _ s)

/-- The bits of a pattern with another sign. -/
theorem getLsbD_withSign (sign : Bool) (d : Dword) (k : Nat) :
    (BitVec.ofBool sign ++ d.extractLsb' 0 63 : BitVec 64).getLsbD k =
      if k < 63 then d.getLsbD k else (BitVec.ofBool sign).getLsbD (k - 63) := by
  refine BitVec.getLsbD_append.trans ?_
  split
  · simp [*]
  · rfl

/-- A pattern with another sign is denormalized as it was. -/
theorem isDenormal_withSign (sign : Bool) (d : Dword) :
    isDenormal (BitVec.ofBool sign ++ d.extractLsb' 0 63 : BitVec 64) = isDenormal d := by
  have hfield (first len : Nat) (h : first + len ≤ 63) :
      (BitVec.ofBool sign ++ d.extractLsb' 0 63 : BitVec 64).extractLsb' first len = d.extractLsb' first len := by
    apply BitVec.eq_of_getLsbD_eq
    intro k hk
    rw [BitVec.getLsbD_extractLsb', BitVec.getLsbD_extractLsb', getLsbD_withSign, if_pos (by omega)]
  unfold isDenormal fpExp fpFrac
  rw [hfield 52 11 (by decide), hfield 0 52 (by decide)]

/-- A pattern of a given sign, bit by bit. -/
theorem eq_withSign {v d : Dword} {sign : Bool} (hs : v.getLsbD 63 = sign) (h : ∀ k, k < 63 → v.getLsbD k = d.getLsbD k) :
    v = (BitVec.ofBool sign ++ d.extractLsb' 0 63 : BitVec 64) := by
  apply BitVec.eq_of_getLsbD_eq
  intro k hk
  rw [getLsbD_withSign]
  by_cases h63 : k = 63
  · subst h63; simpa using hs
  · rw [if_pos (by omega), h k (by omega)]

theorem getLsbD_signMask (k : Nat) (hk : k < 64) : (0x8000000000000000#64).getLsbD k = decide (k = 63) := by
  interval_cases k <;> rfl

theorem getLsbD_magnitudeMask (k : Nat) (hk : k < 64) : (0x7FFFFFFFFFFFFFFF#64).getLsbD k = decide (k < 63) := by
  interval_cases k <;> rfl

theorem fpSign_eq (d : Dword) : fpSign d = d.getLsbD 63 := BitVec.msb_eq_getLsbD_last d

/-- A move delivers the pattern of its source with the sign of the form. -/
theorem exec_fpMoveForm {i : Instr} {s : State} {x : FpMoveForm} (h : fpMoveForm s i = some x) :
    exec i s = fpMove (BitVec.ofBool x.sign ++ x.source.extractLsb' 0 63 : BitVec 64) x.frD x.rc s := by
  unfold fpMoveForm at h
  split at h <;> cases h
  case h_1 frD frB rc =>
    exact congrArg (fpMove · frD rc s) (eq_withSign (fpSign_eq _).symm fun _ _ => rfl)
  case h_2 frD frB rc =>
    refine congrArg (fpMove · frD rc s) (eq_withSign ?_ fun k hk => ?_)
    · simp [negate, fpSign_eq]
    · simp [negate, getLsbD_signMask k (by omega), show k ≠ 63 by omega]
  case h_3 frD frB rc =>
    refine congrArg (fpMove · frD rc s) (eq_withSign ?_ fun k hk => ?_)
    · simp
    · simp [getLsbD_magnitudeMask k (by omega), hk]
  case h_4 frD frB rc =>
    refine congrArg (fpMove · frD rc s) (eq_withSign ?_ fun k hk => ?_)
    · simp
    · simp [getLsbD_signMask k (by omega), show k ≠ 63 by omega]

/-- The floating-point instructions with Rc = 1. -/
theorem floatRecords_cases {i : Instr} (s : State) (h : floatRecords i = true) :
    (∃ x, fpForm s i = some x ∧ x.rc = true) ∨ (∃ frD frB, i = .frsp frD frB true) ∨
      (∃ frD frB, i = .fctiw frD frB true ∨ i = .fctiwz frD frB true) ∨ (∃ frD, i = .mffs frD true) ∨
      (∃ x, fpscrForm s i = some x ∧ x.rc = true) ∨ (∃ x, fpMoveForm s i = some x ∧ x.rc = true) := by
  cases i
  case fadd | fadds | fsub | fsubs | fmul | fmuls | fdiv | fdivs | fmadd | fmadds | fmsub | fmsubs | fnmadd | fnmadds |
      fnmsub | fnmsubs => exact .inl ⟨_, rfl, h⟩
  case frsp frD frB rc => exact .inr (.inl ⟨frD, frB, congrArg (Instr.frsp frD frB) h⟩)
  case fctiw frD frB rc => exact .inr (.inr (.inl ⟨frD, frB, .inl (congrArg (Instr.fctiw frD frB) h)⟩))
  case fctiwz frD frB rc => exact .inr (.inr (.inl ⟨frD, frB, .inr (congrArg (Instr.fctiwz frD frB) h)⟩))
  case mffs frD rc => exact .inr (.inr (.inr (.inl ⟨frD, congrArg (Instr.mffs frD) h⟩)))
  case mtfsfi | mtfsf | mtfsb0 | mtfsb1 => exact .inr (.inr (.inr (.inr (.inl ⟨_, rfl, h⟩))))
  case fmr | fneg | fabs | fnabs => exact .inr (.inr (.inr (.inr (.inr ⟨_, rfl, h⟩))))
  all_goals exact absurd h Bool.false_ne_true

/-! Denormalized operands (43_fp_arith.md R353). -/

/-- Three bits are all zero when none of them is one. -/
theorem ofBool3_eq_zero (a b c : Bool) :
    (BitVec.ofBool a ++ BitVec.ofBool b ++ BitVec.ofBool c : BitVec 3) = 0 ↔ (a || b || c) = false := by
  revert a b c; decide

/-- An operation tells the assist or FPECR which operands are denormalized. -/
theorem denorm_eq (op : FpOp) :
    ∃ dnc dnb dna, (∀ s, op.denorm s = denormOperand dnc dnb dna s) ∧
      op.denormals = (BitVec.ofBool dnc ++ BitVec.ofBool dnb ++ BitVec.ofBool dna : BitVec 3) ∧
      op.operands.any isDenormal = (dnc || dnb || dna) := by
  cases op <;> refine ⟨_, _, _, fun _ => rfl, rfl, ?_⟩ <;> simp [FpOp.operands, Bool.or_comm]

theorem any_isDenormal_iff (op : FpOp) : op.operands.any isDenormal = true ↔ op.denormals ≠ 0 := by
  obtain ⟨dnc, dnb, dna, -, hbits, hany⟩ := denorm_eq op
  rw [hbits, hany, Ne, ofBool3_eq_zero, Bool.not_eq_false]

/-- A denormalized operand of a double arithmetic instruction or of `frsp` stops it. -/
theorem exec_denormalForm {i : Instr} {s : State} {d : BitVec 3} (h : denormalForm s i = some d) (hfp : msrFP s.msr = true) :
    ∃ dnc dnb dna, exec i s = denormOperand dnc dnb dna s ∧
      d = (BitVec.ofBool dnc ++ BitVec.ofBool dnb ++ BitVec.ofBool dna : BitVec 3) := by
  unfold denormalForm at h
  split at h
  case h_1 frD frB rc =>
    obtain ⟨hden, rfl⟩ : isDenormal (s.f frB) = true ∧ 2#3 = d := by simpa using h
    refine ⟨false, true, false, ?_, rfl⟩
    change execFrsp frD frB rc s = _
    rw [execFrsp, fpAvailable_on _ hfp, if_pos hden]
  case h_2 =>
    split at h
    case h_1 x hx =>
      obtain ⟨⟨hp, hne⟩, rfl⟩ : (x.p = .double ∧ x.op.denormals ≠ 0) ∧ x.op.denormals = d := by simpa using h
      obtain ⟨dnc, dnb, dna, hop, hbits, -⟩ := denorm_eq x.op
      have hany := (any_isDenormal_iff x.op).mpr hne
      refine ⟨dnc, dnb, dna, ?_, hbits⟩
      rw [exec_fpForm hx, fpArith, fpAvailable_on _ hfp, if_neg (by simp [hp]), if_pos ⟨hp, hany⟩, hop]
    case h_2 => cases h

/-- An arithmetic instruction that no denormalized operand stops. -/
theorem not_denormal_of_denormalForm {i : Instr} {s : State} {x : FpForm} (hx : fpForm s i = some x)
    (h : denormalForm s i = none) : ¬(x.p = .double ∧ x.op.operands.any isDenormal = true) := by
  rintro ⟨hp, hany⟩
  have hne := (any_isDenormal_iff x.op).mp hany
  unfold denormalForm at h
  split at h
  case h_1 => cases hx
  case h_2 =>
    rw [hx] at h
    dsimp only at h
    rw [if_pos ⟨hp, hne⟩] at h
    cases h

/-- Operands of single format pass the test of a single-precision operation. -/
theorem not_undefinedSingle_of_representable {x : FpForm} (h : x.p = .single → x.representable) :
    ¬(x.p = .single ∧ (!x.op.operands.all singleOK) = true) := by
  rintro ⟨hp, hbad⟩
  have hok := h hp
  rw [FpForm.representable, hp] at hok
  simp [List.all_eq_true.mpr hok] at hbad

/-- In SIE mode a denormalized operand writes the cause bits and goes on. -/
theorem denormOperand_sie {s : State} (dnc dnb dna : Bool) (h : s.sie = true)
    (hfex : ¬(msrFE s.msr = true ∧ bit s.fpscr 1 = true)) :
    denormOperand dnc dnb dna s = .next (s.setCauses dnc dnb dna false).advance := by
  have hoff := fpEnabledTest_off (s := (s.setCauses dnc dnb dna false).advance) (s.setCauses dnc dnb dna false).pc 0x0010
    (by simpa [fpscrFEX] using hfex)
  rw [denormOperand, if_pos h, finishFp, setCauses_sie, if_pos h, hoff]

/-- Settles O38: the record is kept through the ends of the instructions, and a denormalized operand ends them earlier. -/
theorem floatRecordAndDenormalOperand : Obligations.FloatRecordAndDenormalOperand := by
  refine ⟨?record, ?denormal, ?move⟩
  case record =>
    intro i s t hrec hden hsingle _ hexec hexc
    suffices h : Records (exec i s) from h t hexec hexc
    obtain ⟨x, hx, hrc⟩ | ⟨frD, frB, rfl⟩ | ⟨frD, frB, rfl | rfl⟩ | ⟨frD, rfl⟩ | ⟨x, hx, hrc⟩ | ⟨x, hx, hrc⟩ :=
      floatRecords_cases s hrec
    · rw [exec_fpForm hx, hrc]
      exact records_fpArith x.neg x.frD (not_undefinedSingle_of_representable (hsingle x hx))
        (not_denormal_of_denormalForm hx hden)
    · exact records_frsp (by simpa [denormalForm] using hden)
    · exact records_convertToIntWord _ frD frB s
    · exact records_convertToIntWord _ frD frB s
    · exact records_mffs frD s
    · exact records_fpscrForm hx hrc
    · rw [exec_fpMoveForm hx, hrc]
      exact records_fpMove _ x.frD s
  case denormal =>
    intro i s d hd hfp
    obtain ⟨dnc, dnb, dna, hexec, rfl⟩ := exec_denormalForm hd hfp
    refine ⟨fun hsie hdbg => ?_, fun hsie hfex => ?_⟩
    · exact raises_of_exec (hexec.trans (if_neg (by simp [hsie]))) rfl hdbg
    · have hcauses := causesAre_setCauses (s := s) (t := s) dnc dnb dna false rfl
      rw [causesAre, if_pos hsie] at hcauses
      obtain ⟨hlow, hhigh⟩ := hcauses
      refine ⟨_, hexec.trans (denormOperand_sie dnc dnb dna hsie hfex), hlow, hhigh, ?_⟩
      rw [setCauses_eq]
      rfl
  case move =>
    intro i s x hx hfp
    rw [exec_fpMoveForm hx, fpMove, fpAvailable_on _ hfp, isDenormal_withSign]
    refine ⟨_, rfl, ?_⟩
    have hcauses := causesAre_setCauses (s := s) (t := s.setF x.frD (BitVec.ofBool x.sign ++ x.source.extractLsb' 0 63))
      false (isDenormal x.source) false false rfl
    rw [causesAre] at hcauses ⊢
    rwa [advance_fpecr, recordFp_fpecr]

end Sys2Proof.Proofs

/-! Floating-point compares: the order of the patterns is the order of their values, and the FPSCR after a compare. -/

namespace Sys2Proof.Proofs

open Sys2Proof Sys2Proof.Machine Sys2Proof.Laws

/-! The order of patterns (44_fp_convert_compare_fpscr.md R395). -/

/-- The pattern without its sign, as a number. -/
def magnitudeBits (d : Dword) : Nat := fpExp d * 2 ^ 52 + fpFrac d

/-- The magnitude of a pattern with exponent `e` and fraction `f`, in units of the smallest denormalized number. -/
def scaled (e f : Nat) : Nat := if e = 0 then f else (2 ^ 52 + f) * 2 ^ (e - 1)

theorem fpFrac_lt (d : Dword) : fpFrac d < 2 ^ 52 := BitVec.isLt _

theorem fpExp_lt (d : Dword) : fpExp d < 2048 := BitVec.isLt _

theorem fpKey_eq (d : Dword) : fpKey d = signedMant (fpSign d) (magnitudeBits d) := by
  have hmag : (d &&& 0x7FFFFFFFFFFFFFFF#64).toNat = magnitudeBits d := by
    rw [BitVec.toNat_and, show (0x7FFFFFFFFFFFFFFF#64).toNat = 2 ^ 63 - 1 from rfl, Nat.and_two_pow_sub_one_eq_mod]
    simp only [magnitudeBits, fpExp, fpFrac, BitVec.extractLsb'_toNat, Nat.shiftRight_eq_div_pow]
    omega
  rw [fpKey, hmag]

theorem fpValue_eq_scaled (d : Dword) :
    fpValue d = (signedMant (fpSign d) (scaled (fpExp d) (fpFrac d)) : ℤ) * (2 : ℚ) ^ (-1074 : ℤ) := by
  have habs : (if fpExp d = 0 then (fpFrac d : ℚ) * 2 ^ (-1074 : ℤ)
      else ((2 ^ 52 + fpFrac d : ℕ) : ℚ) * 2 ^ ((fpExp d : ℤ) - 1075)) =
      (scaled (fpExp d) (fpFrac d) : ℚ) * 2 ^ (-1074 : ℤ) := by
    unfold scaled
    split
    · rfl
    · have he : ((fpExp d : ℤ) - 1075) = ((fpExp d - 1 : ℕ) : ℤ) + (-1074 : ℤ) := by omega
      rw [he, zpow_add₀ (by norm_num), zpow_natCast]
      generalize (2 : ℚ) ^ (-1074 : ℤ) = unit
      push_cast
      ring
  rw [fpValue, habs, signFactor, signedMant]
  generalize (2 : ℚ) ^ (-1074 : ℤ) = unit
  split <;> push_cast <;> ring

/-- The magnitude grows with the pattern. -/
theorem scaled_lt_scaled {e f e' f' : Nat} (hf : f < 2 ^ 52) (h : e * 2 ^ 52 + f < e' * 2 ^ 52 + f') (hf' : f' < 2 ^ 52) :
    scaled e f < scaled e' f' := by
  obtain rfl | hlt : e = e' ∨ e < e' := by omega
  · have hff : f < f' := by omega
    unfold scaled
    split
    · exact hff
    · exact Nat.mul_lt_mul_of_pos_right (by omega) (by positivity)
  · calc scaled e f < 2 ^ 52 * 2 ^ e := by
          unfold scaled
          split
          case isTrue h0 => simpa [h0] using hf
          case isFalse h0 =>
            obtain ⟨n, rfl⟩ := Nat.exists_eq_succ_of_ne_zero h0
            have hpos : 0 < 2 ^ n := by positivity
            calc (2 ^ 52 + f) * 2 ^ n < (2 ^ 52 * 2) * 2 ^ n := Nat.mul_lt_mul_of_pos_right (by omega) hpos
              _ = 2 ^ 52 * 2 ^ (n + 1) := by rw [mul_assoc, pow_succ' 2 n]
      _ ≤ 2 ^ 52 * 2 ^ (e' - 1) := Nat.mul_le_mul_left _ (Nat.pow_le_pow_right (by decide) (by omega))
      _ ≤ scaled e' f' := by
          rw [scaled, if_neg (by omega)]
          exact Nat.mul_le_mul_right _ (by omega)

theorem scaled_lt_iff (a b : Dword) :
    scaled (fpExp a) (fpFrac a) < scaled (fpExp b) (fpFrac b) ↔ magnitudeBits a < magnitudeBits b := by
  have ha := fpFrac_lt a
  have hb := fpFrac_lt b
  refine ⟨fun h => ?_, fun h => scaled_lt_scaled ha h hb⟩
  by_contra hle
  unfold magnitudeBits at hle
  obtain heq | hgt := (Nat.le_of_not_lt hle).eq_or_lt
  · obtain ⟨he, hf⟩ : fpExp a = fpExp b ∧ fpFrac a = fpFrac b := by omega
    rw [he, hf] at h
    exact lt_irrefl _ h
  · exact lt_asymm h (scaled_lt_scaled hb hgt ha)

theorem scaled_eq_zero_iff (d : Dword) : scaled (fpExp d) (fpFrac d) = 0 ↔ magnitudeBits d = 0 := by
  unfold scaled magnitudeBits
  split
  case isTrue h0 => simp [h0]
  case isFalse h0 =>
    have hpos : 0 < 2 ^ (fpExp d - 1) := by positivity
    simp [h0]

/-- Signed numbers are ordered as others whose magnitudes are ordered alike. -/
theorem signedMant_lt_congr {n n' : Bool} {m m' k k' : Nat} (h : m < m' ↔ k < k') (h' : m' < m ↔ k' < k)
    (h0 : m = 0 ↔ k = 0) (h0' : m' = 0 ↔ k' = 0) :
    signedMant n m < signedMant n' m' ↔ signedMant n k < signedMant n' k' := by
  cases n <;> cases n' <;> simp only [signedMant, if_true, if_false, Bool.false_eq_true] <;> omega

/-- Finite patterns are ordered as their values. -/
theorem fpValue_lt_iff (a b : Dword) : fpValue a < fpValue b ↔ fpKey a < fpKey b := by
  rw [fpValue_eq_scaled, fpValue_eq_scaled, mul_lt_mul_iff_left₀ (by positivity), Int.cast_lt, fpKey_eq, fpKey_eq]
  exact signedMant_lt_congr (scaled_lt_iff a b) (scaled_lt_iff b a) (scaled_eq_zero_iff a) (scaled_eq_zero_iff b)

/-- An infinity is beyond every finite pattern. -/
theorem magnitudeBits_inf {d : Dword} (h : isInf d = true) : magnitudeBits d = 2047 * 2 ^ 52 := by
  obtain ⟨he, hf⟩ : fpExp d = 2047 ∧ fpFrac d = 0 := by simpa [isInf] using h
  rw [magnitudeBits, he, hf, Nat.add_zero]

theorem magnitudeBits_finite {d : Dword} (hn : isNaN d = false) (h : isInf d = false) : magnitudeBits d < 2047 * 2 ^ 52 := by
  have hf := fpFrac_lt d
  have he := fpExp_lt d
  have hne : fpExp d ≠ 2047 := by
    intro h47
    have hzero : fpFrac d = 0 := by simpa [isNaN, h47] using hn
    simp [isInf, h47, hzero] at h
  unfold magnitudeBits
  omega

/-- The key of R395 orders the patterns that are no NaN as their values. -/
theorem fpLess_iff {a b : Dword} (ha : isNaN a = false) (hb : isNaN b = false) : fpLess a b ↔ fpKey a < fpKey b := by
  unfold fpLess
  split_ifs with hia hib
  · have hma := magnitudeBits_inf hia
    rw [fpKey_eq, fpKey_eq, hma]
    cases hib : isInf b
    · have hmb := magnitudeBits_finite hb hib
      cases fpSign a <;> cases fpSign b <;> simp [signedMant] <;> omega
    · rw [magnitudeBits_inf hib]
      cases fpSign a <;> cases fpSign b <;> simp [signedMant]
  · have hma := magnitudeBits_finite ha (by simpa using hia)
    rw [fpKey_eq, fpKey_eq, magnitudeBits_inf hib]
    cases fpSign a <;> cases fpSign b <;> simp [signedMant] <;> omega
  · exact fpValue_lt_iff a b

/-- The four bits of a compare: FL, FG, FE and FU. -/
theorem fpCompare_bits (a b : Dword) :
    (fpCompare a b).getLsbD 0 = (isNaN a || isNaN b) ∧
      ((fpCompare a b).getLsbD 3 = true ↔ (isNaN a || isNaN b) = false ∧ fpLess a b) ∧
      ((fpCompare a b).getLsbD 2 = true ↔ (isNaN a || isNaN b) = false ∧ fpLess b a) ∧
      ((fpCompare a b).getLsbD 1 = true ↔ (isNaN a || isNaN b) = false ∧ ¬fpLess a b ∧ ¬fpLess b a) := by
  cases hn : isNaN a || isNaN b
  · obtain ⟨ha, hb⟩ : isNaN a = false ∧ isNaN b = false := by simpa using hn
    rw [fpLess_iff ha hb, fpLess_iff hb ha, fpCompare, if_neg (by simp [hn])]
    split_ifs with hlt hgt
    · simp [hlt, lt_asymm hlt]
    · simp [hlt, hgt]
    · simp [hlt, hgt]
  · simp [fpCompare, hn]

/-! The FPSCR after an instruction signals exceptions (10_state.md R40, R41). -/

/-- The exception bits: 3 to 12 and 21 to 23. -/
theorem bit_fpExceptionMask (k : Nat) (hk : k < 32) :
    bit fpExceptionMask k = decide ((3 ≤ k ∧ k ≤ 12) ∨ (21 ≤ k ∧ k ≤ 23)) := by
  interval_cases k <;> rfl

/-- An exception bit is no summary bit and no bit of FR, FI and FPRF. -/
theorem exceptionBit_range {k : Nat} (hk : k < 32) (h : bit fpExceptionMask k = true) : 3 ≤ k ∧ ¬(13 ≤ k ∧ k ≤ 20) := by
  rw [bit_fpExceptionMask k hk, decide_eq_true_iff] at h
  omega

/-- Signalling the exception bits `sets` in an FPSCR that differs in FR, FI and FPRF alone. -/
theorem fpscrBecomes_fpSignal {s t : State} {f set : Word} {sets : List Nat} (ht : t.fpscr = fpSignal f set)
    (hset : ∀ k, k < 32 → bit set k = sets.contains k) (hsets : ∀ k ∈ sets, k < 32 ∧ bit fpExceptionMask k = true)
    (hf : ∀ k, k < 32 → ¬(13 ≤ k ∧ k ≤ 20) → bit f k = bit s.fpscr k) :
    fpscrBecomes s t sets (some (bit f 13)) (some (bit f 14)) (some (bits f 15 5)) := by
  have hother (k : Nat) (hk : k < 32) (hno : k < 3 ∨ (13 ≤ k ∧ k ≤ 20)) : bit set k = false := by
    rw [hset k hk, List.contains_eq_mem, decide_eq_false]
    intro hmem
    obtain ⟨h3, h13⟩ := exceptionBit_range hk (hsets k hmem).2
    omega
  have hkeep (k : Nat) (h13 : 13 ≤ k) (h20 : k < 20) : bit t.fpscr k = bit f k := by
    rw [ht, bit_fpSignal f set k (by omega) (by omega) (by omega) (by omega) (by omega),
      hother k (by omega) (by omega), Bool.or_false]
  have hnew : decide (set &&& ~~~f ≠ 0) = sets.any fun k => !bit s.fpscr k := by
    rw [Bool.eq_iff_iff, decide_eq_true_iff, ← bne_iff_ne, and_mask_ne_zero, List.any_eq_true]
    constructor
    · rintro ⟨k, hk, hs, hn⟩
      rw [hset k hk, List.contains_iff_mem] at hs
      obtain ⟨h3, h13⟩ := exceptionBit_range hk (hsets k hs).2
      rw [bit_not, hf k hk h13] at hn
      exact ⟨k, hs, hn⟩
    · rintro ⟨k, hs, hn⟩
      obtain ⟨hk, hex⟩ := hsets k hs
      obtain ⟨h3, h13⟩ := exceptionBit_range hk hex
      exact ⟨k, hk, by rw [hset k hk]; exact List.contains_iff_mem.mpr hs, by rw [bit_not, hf k hk h13]; exact hn⟩
  refine ⟨fun k h3 hk h13 => ?_, ?_, fpscrSummed_fpSummary t _ ht, ?_, ?_, ?_⟩
  · rw [ht, bit_fpSignal f set k hk (by omega) (by omega) (by omega) (by omega), hset k hk, hf k hk h13]
  · rw [ht, fx_fpSignal, hf 0 (by decide) (by decide), hother 0 (by decide) (.inl (by decide)), Bool.or_false, hnew]
  · rintro v ⟨⟩; exact hkeep 13 (by decide) (by decide)
  · rintro v ⟨⟩; exact hkeep 14 (by decide) (by decide)
  · rintro v ⟨⟩; exact bits_congr (by decide) fun k h15 h20 => hkeep k (by omega) h20

/-- The bits of the FPSCR after FPCC is written. -/
theorem bit_fpSetFPCC (f : Word) (c : BitVec 4) (k : Nat) (hk : k < 32) :
    bit (fpSetFPCC f c) k = if 16 ≤ k ∧ k ≤ 19 then c.getLsbD (19 - k) else bit f k := by
  have hmask : bit 0x0000F000#32 k = decide (16 ≤ k ∧ k ≤ 19) := by interval_cases k <;> rfl
  rw [fpSetFPCC, bit_insertBits, hmask]
  by_cases h : 16 ≤ k ∧ k ≤ 19
  · rw [if_pos (decide_eq_true h), if_pos h]
    simp only [bit, BitVec.getLsbD_shiftLeft, BitVec.getLsbD_setWidth]
    rw [show 31 - k - 12 = 19 - k by omega, decide_eq_true (show 31 - k < 32 by omega),
      decide_eq_false (show ¬31 - k < 12 by omega), decide_eq_true (show 19 - k < 32 by omega)]
    simp
  · rw [if_neg (by simpa using h), if_neg h]

/-- FPRF after FPCC is written: its first bit, and the four new ones. -/
theorem bits_fpSetFPCC (f : Word) (c : BitVec 4) : bits (fpSetFPCC f c) 15 5 = (bits f 15 1 ++ c : BitVec 5) := by
  apply BitVec.eq_of_getLsbD_eq
  intro i hi
  rw [bits_getLsbD _ _ _ _ hi (by decide), bit_fpSetFPCC _ _ _ (by omega), BitVec.getLsbD_append]
  by_cases h4 : i < 4
  · rw [if_pos (by omega), if_pos h4]
    congr 1
    omega
  · obtain rfl : i = 4 := by omega
    rw [if_neg (by decide), if_neg (by decide)]
    exact (bits_getLsbD f 15 1 0 (by decide) (by decide)).symm

/-! Compares (R395 to R397). -/

/-- The exception bits of a compare: VXSNAN and VXVC. -/
theorem bit_compareSet (snan vc : Bool) (k : Nat) (hk : k < 32) :
    bit (maskIf snan fpVXSNAN ||| maskIf vc fpVXVC) k =
      ((if snan then [7] else []) ++ (if vc then [12] else [])).contains k := by
  have h7 : bit fpVXSNAN k = decide (k = 7) := by interval_cases k <;> rfl
  have h12 : bit fpVXVC k = decide (k = 12) := by interval_cases k <;> rfl
  cases snan <;> cases vc <;> simp [maskIf, h7, h12]

theorem compareSet_exceptionBits (snan vc : Bool) :
    ∀ k ∈ (if snan then [7] else []) ++ (if vc then [12] else []), k < 32 ∧ bit fpExceptionMask k = true := by
  revert snan vc; decide

theorem compareSets_eq_nil_iff (snan vc : Bool) :
    (if snan then [7] else []) ++ (if vc then [12] else []) = ([] : List Nat) ↔ snan = false ∧ vc = false := by
  cases snan <;> cases vc <;> simp

theorem isNaN_of_isSNaN {d : Dword} (h : isSNaN d = true) : isNaN d = true := (Bool.and_eq_true_iff.mp h).1

/-- Both compares: the assist exception for an enabled invalid operation in precise mode outside SIE mode, else the result. -/
theorem exec_compare {i : Instr} {ordered : Bool} {crfD : BitVec 3} {frA frB : Reg} {s : State}
    (hi : (i = .fcmpu crfD frA frB ∧ ordered = false) ∨ (i = .fcmpo crfD frA frB ∧ ordered = true))
    (hfp : msrFP s.msr = true) :
    let nan := isNaN (s.f frA) || isNaN (s.f frB)
    let snan := isSNaN (s.f frA) || isSNaN (s.f frB)
    exec i s =
      if ((snan || ordered && nan) && fpVE s.fpscr && s.fpTraps) = true then raise .fpAssist s
      else comparing crfD (s.f frA) (s.f frB)
        (maskIf snan fpVXSNAN ||| maskIf (ordered && nan && !(snan && fpVE s.fpscr)) fpVXVC) s := by
  intro nan snan
  have hnan : snan = true → nan = true := by
    intro h
    rcases Bool.or_eq_true_iff.mp h with h | h <;> simp [nan, isNaN_of_isSNaN h]
  obtain ⟨rfl, rfl⟩ | ⟨rfl, rfl⟩ := hi
  · change execFcmpu crfD frA frB s = _
    rw [execFcmpu, fpAvailable_on _ hfp]
    change (if (snan && fpVE s.fpscr && s.fpTraps) = true then _ else comparing crfD _ _ (maskIf snan fpVXSNAN) s) = _
    simp [maskIf]
  · change execFcmpo crfD frA frB s = _
    rw [execFcmpo, fpAvailable_on _ hfp]
    change (if (nan && fpVE s.fpscr && s.fpTraps) = true then _ else comparing crfD _ _
      (if snan then fpVXSNAN ||| maskIf (!fpVE s.fpscr) fpVXVC else maskIf nan fpVXVC) s) = _
    cases hs : snan
    · simp [maskIf]
    · simp [maskIf, hnan hs]

/-- A compare that completes: CR, FPSCR and FPECR as R395 says, and no other change. -/
theorem comparing_completes (crfD : BitVec 3) (a b : Dword) (set : Word) (s : State) :
    ∃ t, comparing crfD a b set s = .next t ∧ t.cr = setCrField s.cr crfD (fpCompare a b) ∧
      t.fpscr = fpSignal (fpSetFPCC s.fpscr (fpCompare a b)) set ∧ t.mem = s.mem ∧
      causesAre false (isDenormal b) (isDenormal a) false s t ∧
      t = { s with fpscr := t.fpscr, fpecr := t.fpecr, cr := t.cr, pc := s.pc + 4 } := by
  let u : State := { s with fpscr := fpSignal (fpSetFPCC s.fpscr (fpCompare a b)) set }.setCr crfD (fpCompare a b)
  have heq := setCauses_eq u false (isDenormal b) (isDenormal a) false
  refine ⟨_, rfl, setCauses_cr u .., setCauses_fpscr u .., setCauses_mem u .., causesAre_setCauses (t := u) _ _ _ _ rfl, ?_⟩
  rw [advance_cr, setCauses_cr, advance_fpscr, setCauses_fpscr]
  exact congrArg State.advance heq

/-- The CR bits after a compare. -/
theorem bit_compareField {crfD : BitVec 3} {c : BitVec 4} {cr cr' : Word} (h : cr' = setCrField cr crfD c) (j : Nat)
    (hj : j < 4) : bit cr' (4 * crfD.toNat + j) = c.getLsbD (3 - j) := by
  have := crfD.isLt
  rw [h, bit_setCrField _ _ _ _ (by omega), if_pos (by omega)]
  congr 1
  omega

/-- Settles O41: the two compares differ in VXVC alone; the key orders the operands as their values. -/
theorem fpCompareResult : Obligations.FpCompareResult := by
  intro i ordered crfD frA frB s hi a b nan snan sets
  constructor
  · intro hfp hmode
    have hgo : ¬((snan || ordered && nan) && fpVE s.fpscr && s.fpTraps) = true := by
      rcases hmode with h | h | h | h
      · simp [State.fpTraps, h]
      · simp [State.fpTraps, h]
      · simp [h]
      · obtain ⟨hs, hvc⟩ := (compareSets_eq_nil_iff snan _).mp h
        have hnan : (ordered && nan) = false := by simpa [hs] using hvc
        simp [hs, hnan]
    obtain ⟨t, hexec, hcr, hfpscr, hmem, hcauses, hframe⟩ := comparing_completes crfD a b
      (maskIf snan fpVXSNAN ||| maskIf (ordered && nan && !(snan && fpVE s.fpscr)) fpVXVC) s
    obtain ⟨hunordered, hless, hgreater, hequal⟩ := fpCompare_bits a b
    refine ⟨t, ((exec_compare hi hfp).trans (if_neg hgo)).trans hexec, ?_, ?_, ?_, ?_, ?_, ?_, sameMemory_of_mem hmem,
      hcauses, hframe⟩
    · rw [bit_compareField hcr 3 (by decide)]
      exact hunordered
    · rw [← Nat.add_zero (4 * crfD.toNat), bit_compareField hcr 0 (by decide)]
      exact hless
    · rw [bit_compareField hcr 1 (by decide)]
      exact hgreater
    · rw [bit_compareField hcr 2 (by decide)]
      exact hequal
    · have hbecomes := fpscrBecomes_fpSignal (s := s) hfpscr (bit_compareSet snan _) (compareSet_exceptionBits snan _)
        (fun k hk h13 => by rw [bit_fpSetFPCC _ _ _ hk, if_neg (by omega)])
      rw [bit_fpSetFPCC _ _ 13 (by decide), bit_fpSetFPCC _ _ 14 (by decide), bits_fpSetFPCC] at hbecomes
      rw [hcr, crField_setCrField_same]
      exact hbecomes
    · intro g hg
      rw [hcr, crField_setCrField_ne _ _ _ _ hg]
  · rintro ⟨hfp, hfe, hsie, hdbg⟩ hve hsets
    have hstop : ((snan || ordered && nan) && fpVE s.fpscr && s.fpTraps) = true := by
      have htraps : s.fpTraps = true := by simp [State.fpTraps, hfe, hsie]
      rw [hve, htraps, Bool.and_true, Bool.and_true]
      by_contra hno
      obtain ⟨hs, hnan⟩ : snan = false ∧ (ordered && nan) = false := by simpa using hno
      exact hsets ((compareSets_eq_nil_iff snan _).mpr ⟨hs, by rw [hnan, Bool.false_and]⟩)
    exact raises_of_exec ((exec_compare hi hfp).trans (if_pos hstop)) rfl hdbg

end Sys2Proof.Proofs

/-! The alignment exception of loads and stores (60_exceptions.md R672, R673). -/

namespace Sys2Proof.Proofs

open Sys2Proof Sys2Proof.Machine Sys2Proof.Laws

/-! DSISR. -/

/-- The fields of a word of the layout of DSISR (R673), from the left. -/
theorem bits_dsisrLayout (a : BitVec 15) (b : BitVec 2) (c : BitVec 1) (d : BitVec 4) (e f : BitVec 5) :
    let w : Word := a ++ b ++ c ++ d ++ e ++ f
    bits w 0 15 = a ∧ bits w 15 2 = b ∧ bits w 17 1 = c ∧ bits w 18 4 = d ∧ bits w 22 5 = e ∧ bits w 27 5 = f := by
  intro w
  refine ⟨?_, ?_, ?_, ?_, ?_, ?_⟩ <;> refine BitVec.eq_of_getLsbD_eq fun k hk => ?_
  all_goals
    simp only [w, bits, BitVec.getLsbD_extractLsb', BitVec.getLsbD_append]
    interval_cases k <;> simp

/-- A bit is a field of length 1. -/
theorem bit_eq_of_bits {v w : Word} {j k : Nat} (h : bits v j 1 = bits w k 1) : bit v j = bit w k := by
  have h0 := congrArg (fun x : BitVec 1 => x.getLsbD 0) h
  simp only [bits, BitVec.getLsbD_extractLsb'] at h0
  simpa [bit, show ∀ m, 32 - m - 1 = 31 - m by omega] using h0

/-- DSISR[0:26] tells the instruction, and DSISR[27:31] is the field given. -/
theorem dsisrOf_fields (w : Word) (low : BitVec 5) :
    dsisrTells w (dsisrOf w low) ∧ bits (dsisrOf w low) 27 5 = low := by
  unfold dsisrTells dsisrOf
  by_cases hX : bits w 0 6 = 31#6
  · simp only [hX, if_true]
    obtain ⟨h0, h15, h17, h18, h22, h27⟩ := bits_dsisrLayout 0 (bits w 29 2) (bits w 25 1) (bits w 21 4) (bits w 6 5) low
    exact ⟨⟨h0, h22, h15, bit_eq_of_bits h17, h18⟩, h27⟩
  · simp only [hX, if_false]
    obtain ⟨h0, h15, h17, h18, h22, h27⟩ := bits_dsisrLayout 0 0 (bits w 5 1) (bits w 1 4) (bits w 6 5) low
    exact ⟨⟨h0, h22, h15, bit_eq_of_bits h17, h18⟩, h27⟩

/-- The last field of DSISR for an instruction that loads the registers of `p`: its field of rA, or a register not loaded. -/
theorem dsisrLow_harmless (w : Word) (p : Reg → Bool) (d : Dword) :
    dsisrLow w (some p) d = bits w 11 5 ∨ p (dsisrLow w (some p) d) = false := by
  unfold dsisrLow
  dsimp only
  split
  case isTrue => exact .inl rfl
  case isFalse h => exact .inr (Bool.eq_false_of_not_eq_true h)

/-! The exception. -/

/-- `exec` takes the alignment exception for an access at `ea`: the entry with SRR0 = CIA, and DAR and DSISR as R673 says. -/
def aligns (i : Instr) (ea : Word) (s t : State) : Prop :=
  exec i s = .next t ∧ enters .alignment s.pc 0 s t ∧ t.dar = ea ∧ dsisrTells (encode i) t.dsisr

/-- Every alignment exception outside debug mode: the entry, and the last field of DSISR. -/
theorem aligns_of_alignmentOf {i : Instr} {s : State} {ea : Word} (loads : Option (Reg → Bool)) (h : s.inDebug = false)
    (hx : exec i s = alignmentOf i loads ea s) :
    ∃ t, aligns i ea s t ∧ ∃ d, bits t.dsisr 27 5 = dsisrLow (encode i) loads d := by
  let low := dsisrLow (encode i) loads s.draw.1
  let u : State := { s.draw.2 with dar := ea, dsisr := dsisrOf (encode i) low }
  have hu : u.inDebug = false := h
  have heq := takeVia_eq u .alignment Exc.alignment.causeBit s.pc 0 hu
  have hdar : (u.take .alignment s.pc 0).dar = ea := congrArg State.dar heq
  have hdsisr : (u.take .alignment s.pc 0).dsisr = dsisrOf (encode i) low := congrArg State.dsisr heq
  obtain ⟨htells, hlow⟩ := dsisrOf_fields (encode i) low
  refine ⟨u.take .alignment s.pc 0, ⟨?_, take_enters .alignment s.pc 0 hu, hdar, hdsisr ▸ htells⟩, s.draw.1, hdsisr ▸ hlow⟩
  rw [hx, alignmentOf, if_neg (by simp [h])]
  rfl

/-- The alignment exception of an instruction that loads no several registers. -/
theorem aligns_of_alignment {i : Instr} {s : State} {ea : Word} (h : s.inDebug = false)
    (hx : exec i s = alignment i ea s) : ∃ t, aligns i ea s t :=
  (aligns_of_alignmentOf none h hx).imp fun _ ht => ht.1

/-! The instructions by their forms. -/

/-- An integer load of one operand is `loadInt` on its form. -/
theorem exec_loadForm {i : Instr} {s : State} {x : LoadForm} (h : loadForm s i = some x) :
    ∃ ext, exec i s = loadInt i x.size ext x.rD x.update x.ea s := by
  unfold loadForm at h
  split at h <;> cases h <;> exact ⟨_, rfl⟩

/-- An integer store of one operand is `storeInt` on its form. -/
theorem exec_storeForm {i : Instr} {s : State} {x : StoreForm} (h : storeForm s i = some x) :
    ∃ v, exec i s = storeInt i x.bytes.length v x.update x.ea s := by
  unfold storeForm at h
  split at h <;> cases h <;> exact ⟨_, rfl⟩

theorem exec_fpLoadSingle {i : Instr} {s : State} {x : FpAccessForm} (h : fpLoadSingle s i = some x) :
    exec i s = loadSingle i x.fr x.update x.ea s := by
  unfold fpLoadSingle at h
  split at h <;> cases h <;> rfl

theorem exec_fpLoadDouble {i : Instr} {s : State} {x : FpAccessForm} (h : fpLoadDouble s i = some x) :
    exec i s = loadDouble i x.fr x.update x.ea s := by
  unfold fpLoadDouble at h
  split at h <;> cases h <;> rfl

theorem exec_fpStoreSingle {i : Instr} {s : State} {x : FpAccessForm} (h : fpStoreSingle s i = some x) :
    exec i s = storeSingle i x.fr x.update x.ea s := by
  unfold fpStoreSingle at h
  split at h <;> cases h <;> rfl

theorem exec_fpStoreDouble {i : Instr} {s : State} {x : FpAccessForm} (h : fpStoreDouble s i = some x) :
    exec i s = storeDouble i x.fr x.update x.ea s := by
  unfold fpStoreDouble at h
  split at h <;> cases h <;> rfl

/-- A floating-point access is `stfiwx`, or a single or double load or store. -/
theorem fpAccess_cases {i : Instr} {s : State} {ea : Word} {n : Nat} (h : fpAccess s i = some (ea, n)) :
    (∃ frS rA rB, i = .stfiwx frS rA rB ∧ ea = s.eaX rA rB ∧ n = 4) ∨
      (∃ x, fpLoadSingle s i = some x ∧ ea = x.ea ∧ n = 4) ∨ (∃ x, fpStoreSingle s i = some x ∧ ea = x.ea ∧ n = 4) ∨
      (∃ x, fpLoadDouble s i = some x ∧ ea = x.ea ∧ n = 8) ∨ (∃ x, fpStoreDouble s i = some x ∧ ea = x.ea ∧ n = 8) := by
  unfold fpAccess at h
  split at h
  case h_1 frS rA rB => cases h; exact .inl ⟨frS, rA, rB, rfl, rfl, rfl⟩
  case h_2 =>
    split at h
    case h_1 x hx => cases h; exact .inr (.inl ⟨x, hx, rfl, rfl⟩)
    case h_2 x hx _ => cases h; exact .inr (.inr (.inl ⟨x, hx, rfl, rfl⟩))
    case h_3 x hx _ _ => cases h; exact .inr (.inr (.inr (.inl ⟨x, hx, rfl, rfl⟩)))
    case h_4 x hx _ _ _ => cases h; exact .inr (.inr (.inr (.inr ⟨x, hx, rfl, rfl⟩)))
    case h_5 => cases h

/-- A floating-point access that is not on its boundary is the alignment exception, with MSR[FP] = 1. -/
theorem exec_fpAccess_misaligned {i : Instr} {s : State} {ea : Word} {n : Nat} (h : fpAccess s i = some (ea, n))
    (hfp : msrFP s.msr = true) (hm : s.fpMisaligned ea n = true) : exec i s = alignment i ea s := by
  obtain ⟨frS, rA, rB, rfl, rfl, rfl⟩ | ⟨x, hx, rfl, rfl⟩ | ⟨x, hx, rfl, rfl⟩ | ⟨x, hx, rfl, rfl⟩ | ⟨x, hx, rfl, rfl⟩ :=
    fpAccess_cases h
  · change execStfiwx frS rA rB s = _
    rw [execStfiwx, fpAvailable_on _ hfp]
    exact if_pos hm
  · rw [exec_fpLoadSingle hx, loadSingle, fpAvailable_on _ hfp, if_pos hm]
  · rw [exec_fpStoreSingle hx, storeSingle, fpAvailable_on _ hfp, if_pos hm]
  · rw [exec_fpLoadDouble hx, loadDouble, fpAvailable_on _ hfp, if_pos hm]
  · rw [exec_fpStoreDouble hx, storeDouble, fpAvailable_on _ hfp, if_pos hm]

theorem fpMisaligned_iff (s : State) (ea : Word) (n : Nat) :
    s.fpMisaligned ea n = true ↔ ea.toNat % (if msrLE s.msr then n else 4) ≠ 0 := by
  unfold State.fpMisaligned
  split <;> simp

theorem leMisaligned_iff (s : State) (ea : Word) (n : Nat) :
    s.leMisaligned ea n = true ↔ msrLE s.msr = true ∧ ea.toNat % n ≠ 0 := by
  simp [State.leMisaligned]

/-- A register of the range from `rD` on is one of its `k` registers. -/
theorem inRange_of_eq_add {rD r : Reg} {k j : Nat} (hj : j < k) (hr : r = rD + BitVec.ofNat 5 j) : inRange rD k r = true := by
  have hsub : r - rD = BitVec.ofNat 5 j := by rw [hr, BitVec.add_comm, BitVec.add_sub_cancel]
  rw [inRange, hsub, decide_eq_true_eq, BitVec.toNat_ofNat]
  exact (Nat.mod_le _ _).trans_lt hj

/-- A multiple or string instruction that is misaligned, or in little-endian mode, is the alignment exception; where it loads
registers, those that `loads` tells are among them. -/
theorem exec_transfer_misaligned {i : Instr} {s : State} {ea : Word} (h : transferEa s i = some ea)
    (hm : msrLE s.msr = true ∨ (ea.toNat % 4 ≠ 0 ∧ ∃ r d rA, i = .lmw r d rA ∨ i = .stmw r d rA)) :
    ∃ loads, exec i s = alignmentOf i loads ea s ∧
      ∀ p, transferRegs s i = some p → ∃ q, loads = some q ∧ ∀ r, p r → q r = true := by
  have hm4 : (msrLE s.msr || ea.toNat % 4 != 0) = true := by
    rcases hm with hm | hm <;> simp [hm]
  unfold transferEa at h
  split at h <;> cases h
  case h_1 rD d rA =>
    refine ⟨_, if_pos hm4, ?_⟩
    rintro p ⟨⟩
    exact ⟨_, rfl, fun r hr => decide_eq_true hr⟩
  case h_2 rS d rA => exact ⟨none, if_pos hm4, nofun⟩
  all_goals
    have hle : msrLE s.msr = true := by simpa using hm
  case h_3 | h_5 =>
    refine ⟨_, if_pos hle, ?_⟩
    rintro p ⟨⟩
    exact ⟨_, rfl, fun r ⟨_, hj, hr⟩ => inRange_of_eq_add hj hr⟩
  case h_4 | h_6 => exact ⟨none, if_pos hle, nofun⟩

/-- Settles O25: each form, when misaligned, answers the alignment exception, which is one entry for all of them. -/
theorem misalignedAccessTakesAlignment : Obligations.MisalignedAccessTakesAlignment := by
  refine ⟨?transfer, ?reserving, ?load, ?store, ?fp⟩
  case transfer =>
    intro i s ea hea hd hm
    obtain ⟨loads, hx, hloads⟩ := exec_transfer_misaligned hea hm
    obtain ⟨t, ⟨hexec, henters, hdar, htells⟩, d, hlow⟩ := aligns_of_alignmentOf loads hd hx
    refine ⟨t, hexec, henters, hdar, htells, fun p hp => ?_⟩
    obtain ⟨q, rfl, hq⟩ := hloads p hp
    rw [hlow]
    refine (dsisrLow_harmless (encode i) q d).imp_right fun hnot hin => ?_
    exact Bool.false_ne_true (hnot.symm.trans (hq _ hin))
  case reserving =>
    rintro i r rA rB s (rfl | rfl) hd hm
    · exact aligns_of_alignment hd (if_pos hm)
    · exact aligns_of_alignment hd (if_pos hm)
  case load =>
    intro i s x hform hd hle hm
    obtain ⟨ext, hx⟩ := exec_loadForm hform
    exact aligns_of_alignment hd (hx.trans (if_pos ((leMisaligned_iff ..).mpr ⟨hle, hm⟩)))
  case store =>
    intro i s x hform hd hle hm
    obtain ⟨v, hx⟩ := exec_storeForm hform
    exact aligns_of_alignment hd (hx.trans (if_pos ((leMisaligned_iff ..).mpr ⟨hle, hm⟩)))
  case fp =>
    intro i s ea n hform hd hfp hm
    exact aligns_of_alignment hd (exec_fpAccess_misaligned hform hfp ((fpMisaligned_iff ..).mpr hm))

end Sys2Proof.Proofs

/-! The commands of the instruction cache (20_memory.md R172 to R179). -/

namespace Sys2Proof.Proofs

open Sys2Proof Sys2Proof.Machine Sys2Proof.Laws

/-! Lines of the arrays after an update. -/

/-- The state with line `l` in way `w` of the set of `a`. -/
def putLine (s : State) (a : Word) (w : Bool) (l : CacheLine) : State :=
  { s with icache := s.icache.putSet (setOf a) ((s.setFor a).putWay w l) }

theorem lineOfSet_putLine (s : State) (a : Word) (w : Bool) (l : CacheLine) (k : BitVec 7) (way : Bool) :
    (putLine s a w l).lineOfSet k way = if k = setOf a ∧ way = w then l else s.lineOfSet k way := by
  simp only [State.lineOfSet, putLine, setAt_putSet]
  by_cases hk : k = setOf a
  · simp only [hk, if_true, way_putWay, true_and]
    rfl
  · simp only [hk, if_false, false_and]

theorem lru_putLine (s : State) (a : Word) (w : Bool) (l : CacheLine) (k : BitVec 7) :
    ((putLine s a w l).icache.setAt k).lru = (s.icache.setAt k).lru := by
  simp only [putLine, setAt_putSet]
  split
  case isTrue hk => subst hk; cases w <;> rfl
  case isFalse => rfl

/-- The words of a line. -/
theorem wordIndex_cases (k : BitVec 2) : k = 0#2 ∨ k = 1#2 ∨ k = 2#2 ∨ k = 3#2 := by revert k; decide

/-- A fill of a way puts the line read from memory there, and leaves the other lines. -/
theorem fillWay_result (s : State) (a : Word) (w lock : Bool) :
    (s.fillWay a w lock).holdsLine w lock a s ∧
      ∀ k v, ¬(k = setOf a ∧ v = w) → (s.fillWay a w lock).lineOfSet k v = s.lineOfSet k v := by
  constructor
  · have hl : (s.fillWay a w lock).lineOfSet (setOf a) w =
        { tag := tagOf a, valid := true, lock := lock
          word0 := s.wordAt (lineWordAddr a 0), word1 := s.wordAt (lineWordAddr a 1)
          word2 := s.wordAt (lineWordAddr a 2), word3 := s.wordAt (lineWordAddr a 3) } := by
      simp only [State.lineOfSet, State.fillWay, setAt_putSet, if_true]
      cases w <;> rfl
    unfold State.holdsLine
    rw [hl]
    refine ⟨by simp [CacheLine.hits], rfl, fun k => ?_⟩
    obtain rfl | rfl | rfl | rfl := wordIndex_cases k
    all_goals rfl
  · intro k v hkv
    simp only [State.lineOfSet, State.fillWay, setAt_putSet]
    by_cases hk : k = setOf a
    · have hv : v ≠ w := fun h => hkv ⟨hk, h⟩
      simp only [hk, if_true]
      change ((s.setFor a).putWay w _).way v = _
      rw [way_putWay, if_neg hv]
      rfl
    · rw [if_neg hk]

/-! The line of an address. -/

theorem lock_valid {s : State} (hs : s.cacheSound) (k : BitVec 7) (way : Bool) (h : (s.lineOfSet k way).lock = true) :
    (s.lineOfSet k way).valid = true := by
  obtain ⟨-, h0, h1⟩ := hs k
  cases way
  · exact h0 h
  · exact h1 h

/-- In a cache that is sound one way alone holds the line of an address. -/
theorem hits_unique {s : State} (hs : s.cacheSound) {a : Word} {k : BitVec 7} {w v : Bool}
    (hw : (s.lineOfSet k w).hits a = true) (hv : (s.lineOfSet k v).hits a = true) : v = w := by
  obtain ⟨hone, -, -⟩ := hs k
  by_contra hne
  refine hone ?_
  simp only [State.lineOfSet, CacheLine.hits, Bool.and_eq_true, beq_iff_eq] at hw hv
  obtain ⟨hw, htw⟩ := hw
  obtain ⟨hv, htv⟩ := hv
  cases w <;> cases v
  · exact absurd rfl hne
  · exact ⟨hw, hv, htw.trans htv.symm⟩
  · exact ⟨hv, hw, htv.trans htw.symm⟩
  · exact absurd rfl hne

theorem cached_iff_hitWay (s : State) (a : Word) : s.cached a ↔ ∃ w, (s.setFor a).hitWay a = some w := by
  constructor
  · rintro ⟨w, hw⟩
    cases h : (s.setFor a).hitWay a with
    | none => exact absurd (hw.symm.trans (not_hits_of_hitWay_none h w)) Bool.noConfusion
    | some v => exact ⟨v, rfl⟩
  · rintro ⟨w, hw⟩
    exact ⟨w, hits_of_hitWay hw⟩

theorem hitWay_none_iff (s : State) (a : Word) : (s.setFor a).hitWay a = none ↔ ¬s.cached a := by
  rw [cached_iff_hitWay, ← Option.isSome_iff_exists, Option.not_isSome_iff_eq_none]

/-- The way found is the place of the line of the address. -/
theorem hits_iff_place {s : State} (hs : s.cacheSound) {a : Word} {w : Bool} (h : (s.setFor a).hitWay a = some w)
    (k : BitVec 7) (way : Bool) : (k == setOf a && (s.lineOfSet k way).hits a) = decide (k = setOf a ∧ way = w) := by
  have hw : (s.lineOfSet (setOf a) w).hits a = true := hits_of_hitWay h
  rw [Bool.eq_iff_iff, Bool.and_eq_true, beq_iff_eq, decide_eq_true_eq]
  constructor
  · rintro ⟨rfl, hk⟩
    exact ⟨rfl, hits_unique hs hw hk⟩
  · rintro ⟨rfl, rfl⟩
    exact ⟨rfl, hw⟩

theorem lineError_iff (s : State) (a : Word) : s.lineError a = true ↔ s.lineFails a := by
  unfold State.lineError State.lineFails
  simp only [Bool.or_eq_true]
  constructor
  · rintro (((h | h) | h) | h)
    · exact ⟨0, h⟩
    · exact ⟨1, h⟩
    · exact ⟨2, h⟩
    · exact ⟨3, h⟩
  · rintro ⟨k, h⟩
    obtain rfl | rfl | rfl | rfl := wordIndex_cases k
    · exact .inl (.inl (.inl h))
    · exact .inl (.inl (.inr h))
    · exact .inl (.inr h)
    · exact .inr h

/-! Unlocking and invalidating. -/

theorem unlock_of_hits {l : CacheLine} {a : Word} (h : l.hits a = true) : l.unlock = { l with lock := false } :=
  if_pos (Bool.and_eq_true_iff.mp h).1

theorem unlock_eq (l : CacheLine) : l.unlock = { l with lock := l.lock && !l.valid } := by
  obtain ⟨tag, valid, lock, _⟩ := l
  cases valid <;> simp [CacheLine.unlock]

theorem invalidate_eq (l : CacheLine) : l.invalidate = { l with valid := l.valid && l.lock } := by
  obtain ⟨tag, valid, lock, _⟩ := l
  cases lock <;> simp [CacheLine.invalidate]

/-- Unlock line (R176). -/
theorem unlockLine_result {s : State} (hs : s.cacheSound) (a : Word) :
    (∀ k way, (s.unlockLine a).lineOfSet k way =
      { s.lineOfSet k way with
        lock := (s.lineOfSet k way).lock && !(k == setOf a && (s.lineOfSet k way).hits a) }) ∧
      (∀ k, ((s.unlockLine a).icache.setAt k).lru = (s.icache.setAt k).lru) ∧
      (s.unlockLine a).icache.burst = s.icache.burst ∧ (s.unlockLine a).icache.line = s.icache.line := by
  cases h : (s.setFor a).hitWay a with
  | none =>
    have heq : s.unlockLine a = s := by simp only [State.unlockLine, h]
    rw [heq]
    refine ⟨fun k way => ?_, fun _ => rfl, rfl, rfl⟩
    have hmiss : (k == setOf a && (s.lineOfSet k way).hits a) = false := by
      by_cases hk : k = setOf a
      · subst hk
        have : (s.lineOfSet (setOf a) way).hits a = false := not_hits_of_hitWay_none h way
        simp [this]
      · simp [hk]
    simp [hmiss]
  | some w =>
    have heq : s.unlockLine a = putLine s a w { s.lineOfSet (setOf a) w with lock := false } := by
      simp only [State.unlockLine, h, unlock_of_hits (hits_of_hitWay h)]
      rfl
    rw [heq]
    refine ⟨fun k way => ?_, lru_putLine s a w _, rfl, rfl⟩
    rw [lineOfSet_putLine, hits_iff_place hs h]
    split
    case isTrue hk => obtain ⟨rfl, rfl⟩ := hk; simp
    case isFalse hk => simp [hk]

/-- Unlock all (R177). -/
theorem unlockAll_result (s : State) :
    (∀ k way, s.unlockAll.lineOfSet k way =
      { s.lineOfSet k way with lock := (s.lineOfSet k way).lock && !(s.lineOfSet k way).valid }) ∧
      (∀ k, (s.unlockAll.icache.setAt k).lru = (s.icache.setAt k).lru) ∧
      s.unlockAll.icache.burst = s.icache.burst ∧ s.unlockAll.icache.line = s.icache.line := by
  have hset : ∀ k, s.unlockAll.icache.setAt k =
      { s.icache.setAt k with way0 := (s.icache.setAt k).way0.unlock, way1 := (s.icache.setAt k).way1.unlock } := by
    intro k
    simp only [State.unlockAll, ICache.setAt, Vector.getElem_map]
  have hway : ∀ k way, s.unlockAll.lineOfSet k way = (s.lineOfSet k way).unlock := by
    intro k way
    rw [State.lineOfSet, hset]
    cases way <;> rfl
  exact ⟨fun k way => (hway k way).trans (unlock_eq _), fun k => by rw [hset], rfl, rfl⟩

/-- Invalidate all (R174). -/
theorem invalidateAll_result (s : State) :
    (∀ k way, s.invalidateAll.lineOfSet k way =
      { s.lineOfSet k way with valid := (s.lineOfSet k way).valid && (s.lineOfSet k way).lock }) ∧
      (∀ k, (s.lineOfSet k false).lock = false → (s.invalidateAll.icache.setAt k).lru = false) ∧
      (∀ k, (s.lineOfSet k false).lock = true → (s.lineOfSet k true).lock = false →
        (s.invalidateAll.icache.setAt k).lru = true) ∧
      s.invalidateAll.icache.burst = none ∧ s.invalidateAll.icache.line = none := by
  have hset : ∀ k, s.invalidateAll.icache.setAt k = (s.icache.setAt k).invalidateAll := by
    intro k
    simp only [State.invalidateAll, State.uncacheStale, State.remark, ICache.setAt, Vector.getElem_map]
  have hway : ∀ k way, s.invalidateAll.lineOfSet k way = (s.lineOfSet k way).invalidate := by
    intro k way
    rw [State.lineOfSet, hset]
    cases way <;> rfl
  refine ⟨fun k way => (hway k way).trans (invalidate_eq _), fun k h0 => ?_, fun k h0 h1 => ?_, rfl, rfl⟩
  · have h0' : (s.icache.setAt k).way0.lock = false := h0
    simp [hset, CacheSet.invalidateAll, h0']
  · have h0' : (s.icache.setAt k).way0.lock = true := h0
    have h1' : (s.icache.setAt k).way1.lock = false := h1
    simp [hset, CacheSet.invalidateAll, h0', h1']

/-! Load & lock (R175). -/

/-- A line in the arrays is locked where it is. -/
theorem loadLock_cached {s : State} (hs : s.cacheSound) {a : Word} (hc : s.cached a) :
    (s.loadLock a).iccst = s.iccst ∧
      (∀ k, ((s.loadLock a).icache.setAt k).lru = (s.icache.setAt k).lru) ∧
      ∀ k way, (s.loadLock a).lineOfSet k way =
        { s.lineOfSet k way with
          lock := (s.lineOfSet k way).lock || (k == setOf a && (s.lineOfSet k way).hits a) } := by
  obtain ⟨w, hw⟩ := (cached_iff_hitWay s a).mp hc
  have heq : s.loadLock a = putLine s a w { s.lineOfSet (setOf a) w with lock := true } := by
    simp only [State.loadLock, hw]
    rfl
  rw [heq]
  refine ⟨rfl, lru_putLine s a w _, fun k way => ?_⟩
  rw [lineOfSet_putLine, hits_iff_place hs hw]
  split
  case isTrue hk => obtain ⟨rfl, rfl⟩ := hk; simp
  case isFalse hk => simp [hk]

/-- In a cache that is sound the test for two locked ways is that of the lock bits. -/
theorem bothLocked_iff {s : State} (hs : s.cacheSound) (a : Word) :
    ((s.setFor a).way0.valid && (s.setFor a).way0.lock && (s.setFor a).way1.valid && (s.setFor a).way1.lock) = true ↔
      ∀ way, (s.lineOfSet (setOf a) way).lock = true := by
  simp only [Bool.and_eq_true]
  constructor
  · rintro ⟨⟨⟨-, h0⟩, -⟩, h1⟩ way
    cases way
    · exact h0
    · exact h1
  · intro h
    exact ⟨⟨⟨lock_valid hs _ false (h false), h false⟩, lock_valid hs _ true (h true)⟩, h true⟩

/-- Where a way is not locked, a miss finds one to replace that is not locked. -/
theorem victim_of_unlocked {s : State} (hs : s.cacheSound) {a : Word}
    (h : ¬∀ way, (s.lineOfSet (setOf a) way).lock = true) :
    ∃ w, (s.setFor a).victim = some w ∧ (s.lineOfSet (setOf a) w).lock = false := by
  cases hv : (s.setFor a).victim with
  | some w =>
    refine ⟨w, rfl, (victim_unlocked hv).elim id fun hinvalid => ?_⟩
    by_contra hl
    exact Bool.false_ne_true (hinvalid.symm.trans (lock_valid hs (setOf a) w (Bool.eq_true_of_not_eq_false hl)))
  | none =>
    refine absurd (fun way => ?_) h
    unfold CacheSet.victim at hv
    split_ifs at hv with _ _ hlru hother
    simp only [Bool.not_eq_true', Bool.not_eq_false] at hlru hother
    by_cases hway : way = (s.setFor a).lru
    · rw [hway]; exact hlru
    · rw [Bool.eq_not_of_ne hway]; exact hother

theorem loadLock_bothLocked {s : State} (hs : s.cacheSound) {a : Word} (hc : ¬s.cached a)
    (h : ∀ way, (s.lineOfSet (setOf a) way).lock = true) :
    s.loadLock a = { s with iccst := setBit s.iccst 11 true } := by
  simp only [State.loadLock, (hitWay_none_iff s a).mpr hc]
  exact if_pos ((bothLocked_iff hs a).mpr h)

/-- A line that is not in the arrays, and a way that is not locked: a bus error, or the line brought to such a way. -/
theorem loadLock_miss {s : State} (hs : s.cacheSound) {a : Word} (hc : ¬s.cached a)
    (h : ¬∀ way, (s.lineOfSet (setOf a) way).lock = true) :
    ∃ w, (s.lineOfSet (setOf a) w).lock = false ∧
      s.loadLock a =
        if s.lineError a then { s with iccst := setBit s.iccst 10 true, icache := { s.icache with burst := none } }
        else
          let t := { s with icache := { s.icache with burst := some (s.burstOf a (s.cacheInhibited a)) } }
          if s.cacheInhibited a then t else t.fillWay a w true := by
  obtain ⟨w, hv, hw⟩ := victim_of_unlocked hs h
  refine ⟨w, hw, ?_⟩
  simp only [State.loadLock, (hitWay_none_iff s a).mpr hc, hv]
  exact if_neg fun hb => h ((bothLocked_iff hs a).mp hb)

/-- Load & lock of a line that is not in the arrays, with a way that is not locked: CCER2 stays; a bus error sets CCER1 and locks
nothing; else the line is in a way that was not locked, and locked, unless it is cache-inhibited. -/
theorem loadLock_miss_result {s : State} (hs : s.cacheSound) {a : Word} (hc : ¬s.cached a)
    (h : ¬∀ way, (s.lineOfSet (setOf a) way).lock = true) :
    bit (s.loadLock a).iccst 11 = bit s.iccst 11 ∧
      (s.lineFails a → bit (s.loadLock a).iccst 10 = true ∧ (s.loadLock a).icache.sets = s.icache.sets ∧
        (s.loadLock a).icache.burst = none) ∧
      (¬s.lineFails a → bit (s.loadLock a).iccst 10 = bit s.iccst 10 ∧
        (s.cacheInhibited a = true → (s.loadLock a).icache.sets = s.icache.sets) ∧
        (s.cacheInhibited a = false → ∃ way, (s.lineOfSet (setOf a) way).lock = false ∧
          (s.loadLock a).holdsLine way true a s ∧
          ∀ k v, ¬(k = setOf a ∧ v = way) → (s.loadLock a).lineOfSet k v = s.lineOfSet k v)) := by
  obtain ⟨w, hw, heq⟩ := loadLock_miss hs hc h
  rw [← lineError_iff]
  by_cases herr : s.lineError a = true
  · rw [if_pos herr] at heq
    rw [heq]
    refine ⟨bit_setBit _ 10 11 true (by decide) (by decide), fun _ => ⟨?_, rfl, rfl⟩, fun hno => absurd herr hno⟩
    exact bit_setBit _ 10 10 true (by decide) (by decide)
  · rw [if_neg herr] at heq
    by_cases hinh : s.cacheInhibited a = true
    · rw [heq.trans (if_pos hinh)]
      exact ⟨rfl, fun hf => absurd hf herr, fun _ => ⟨rfl, fun _ => rfl, fun hno => absurd (hinh.symm.trans hno) nofun⟩⟩
    · rw [heq.trans (if_neg hinh)]
      refine ⟨rfl, fun hf => absurd hf herr, fun _ => ⟨rfl, fun hyes => absurd hyes hinh, fun _ => ⟨w, hw, ?_⟩⟩⟩
      exact fillWay_result { s with icache := { s.icache with burst := some (s.burstOf a (s.cacheInhibited a)) } } a w true

/-- Nothing but the cache, ICCST and the older versions of words differs. -/
def onlyCache (s t : State) : Prop := t = { s with icache := t.icache, iccst := t.iccst, stale := t.stale }

theorem mem_of_onlyCache {s t : State} (h : onlyCache s t) : t.mem = s.mem := by
  unfold onlyCache at h
  rw [h]

/-- What load & lock leaves of ICCST: an error bit set, or all. -/
theorem loadLock_frame (s : State) (a : Word) :
    onlyCache s (s.loadLock a) ∧
      ((s.loadLock a).iccst = s.iccst ∨ (s.loadLock a).iccst = setBit s.iccst 10 true ∨
        (s.loadLock a).iccst = setBit s.iccst 11 true) := by
  unfold onlyCache State.loadLock State.fillWay
  dsimp only
  repeat' split
  all_goals simp

/-! The command of a write (R172, D12). -/

/-- The state with CMD of `v` in ICCST. -/
def withCommand (s : State) (v : Word) : State := { s with iccst := insertBits s.iccst 0x0E000000#32 v }

section
variable {s : State} {v : Word}

theorem cacheCommand_none (h : bits v 4 3 = 0#3 ∨ bits v 4 3 = 7#3) : s.cacheCommand v = withCommand s v := by
  rcases h with h | h <;> simp [State.cacheCommand, withCommand, h]

theorem cacheCommand_enable (h : bits v 4 3 = 1#3) :
    s.cacheCommand v = { withCommand s v with iccst := setBit (withCommand s v).iccst 0 true } := by
  simp [State.cacheCommand, withCommand, h]

theorem cacheCommand_disable (h : bits v 4 3 = 2#3) :
    s.cacheCommand v = { (withCommand s v).prefetchedStale with iccst := setBit (withCommand s v).iccst 0 false } := by
  simp [State.cacheCommand, withCommand, h, State.prefetchedStale, State.remark]

theorem cacheCommand_loadLock (h : bits v 4 3 = 3#3) : s.cacheCommand v = (withCommand s v).loadLock s.icadr := by
  simp [State.cacheCommand, withCommand, h]

theorem cacheCommand_unlockLine (h : bits v 4 3 = 4#3) : s.cacheCommand v = (withCommand s v).unlockLine s.icadr := by
  simp [State.cacheCommand, withCommand, h]

theorem cacheCommand_unlockAll (h : bits v 4 3 = 5#3) : s.cacheCommand v = (withCommand s v).unlockAll := by
  simp [State.cacheCommand, withCommand, h]

theorem cacheCommand_invalidateAll (h : bits v 4 3 = 6#3) : s.cacheCommand v = (withCommand s v).invalidateAll := by
  simp [State.cacheCommand, withCommand, h]

end

/-- What a command does to ICCST but for CMD: enable and disable write IEN, load & lock may set an error bit. -/
def commandIccst (c : BitVec 3) (old new : Word) : Prop :=
  new = old ∨ ((c = 1#3 ∨ c = 2#3) ∧ ∃ on, new = setBit old 0 on) ∨
    (c = 3#3 ∧ (new = setBit old 10 true ∨ new = setBit old 11 true))

/-- The commands: none, enable and disable, load & lock, unlock line, unlock all, invalidate all. -/
theorem command_cases (c : BitVec 3) :
    c = 0#3 ∨ c = 7#3 ∨ c = 1#3 ∨ c = 2#3 ∨ c = 3#3 ∨ c = 4#3 ∨ c = 5#3 ∨ c = 6#3 := by revert c; decide

/-- A command changes the cache, ICCST and the older versions of words alone. -/
theorem cacheCommand_frame (s : State) (v : Word) :
    onlyCache s (s.cacheCommand v) ∧
      commandIccst (bits v 4 3) (withCommand s v).iccst (s.cacheCommand v).iccst := by
  obtain h | h | h | h | h | h | h | h := command_cases (bits v 4 3)
  · rw [cacheCommand_none (.inl h)]
    exact ⟨rfl, .inl rfl⟩
  · rw [cacheCommand_none (.inr h)]
    exact ⟨rfl, .inl rfl⟩
  · rw [cacheCommand_enable h]
    exact ⟨rfl, .inr (.inl ⟨.inl h, true, rfl⟩)⟩
  · rw [cacheCommand_disable h]
    exact ⟨rfl, .inr (.inl ⟨.inr h, false, rfl⟩)⟩
  · obtain ⟨hframe, hiccst⟩ := loadLock_frame (withCommand s v) s.icadr
    rw [cacheCommand_loadLock h]
    exact ⟨hframe, hiccst.imp_right fun h' => .inr ⟨h, h'⟩⟩
  · rw [cacheCommand_unlockLine h]
    unfold State.unlockLine
    dsimp only
    split <;> exact ⟨rfl, .inl rfl⟩
  · rw [cacheCommand_unlockAll h]
    exact ⟨rfl, .inl rfl⟩
  · rw [cacheCommand_invalidateAll h]
    exact ⟨rfl, .inl rfl⟩

/-- A write of CMD writes ICCST[4:6] alone. -/
theorem bit_withCommand_iccst (s : State) (v : Word) (k : Nat) :
    bit (withCommand s v).iccst k = if bit 0x0E000000#32 k then bit v k else bit s.iccst k := bit_insertBits ..

theorem withCommand_iccst_and (s : State) (v : Word) :
    (withCommand s v).iccst &&& 0x71FFFFFF#32 = s.iccst &&& 0x71FFFFFF#32 := by
  refine eq_of_bit fun k hk => ?_
  rw [bit_and, bit_and, bit_withCommand_iccst]
  interval_cases k <;> simp [bit]

/-- CMD reads back; IEN stays but for enable and disable, the error bits but for load & lock (D11, D12). -/
theorem commandIccst_bits {s : State} {v new : Word} (h : commandIccst (bits v 4 3) (withCommand s v).iccst new) :
    bits new 4 3 = bits v 4 3 ∧
      (bits v 4 3 ≠ 1#3 → bits v 4 3 ≠ 2#3 → bit new 0 = bit s.iccst 0) ∧
      (bits v 4 3 ≠ 3#3 → new &&& 0x71FFFFFF#32 = s.iccst &&& 0x71FFFFFF#32) := by
  have hien : bit (withCommand s v).iccst 0 = bit s.iccst 0 := bit_withCommand_iccst s v 0
  have hcmd : bits (withCommand s v).iccst 4 3 = bits v 4 3 := by
    refine bits_congr (by decide) fun k h4 h7 => (bit_withCommand_iccst s v k).trans (if_pos ?_)
    interval_cases k <;> rfl
  have hset : ∀ j on, (j = 0 ∨ j = 10 ∨ j = 11) → bits (setBit (withCommand s v).iccst j on) 4 3 = bits v 4 3 := by
    intro j on hj
    refine (bits_congr (by decide) fun k h4 h7 => ?_).trans hcmd
    rw [bit_setBit _ _ _ _ (by omega) (by omega), if_neg (by omega)]
  obtain rfl | ⟨hc, on, rfl⟩ | ⟨hc, rfl | rfl⟩ := h
  · exact ⟨hcmd, fun _ _ => hien, fun _ => withCommand_iccst_and s v⟩
  · refine ⟨hset 0 on (.inl rfl), fun h1 h2 => absurd hc (not_or.mpr ⟨h1, h2⟩), fun _ => ?_⟩
    exact (setBit_and (by decide) rfl).trans (withCommand_iccst_and s v)
  · refine ⟨hset 10 true (.inr (.inl rfl)), fun _ _ => ?_, fun h3 => absurd hc h3⟩
    exact (bit_setBit _ 10 0 true (by decide) (by decide)).trans hien
  · refine ⟨hset 11 true (.inr (.inr rfl)), fun _ _ => ?_, fun h3 => absurd hc h3⟩
    exact (bit_setBit _ 11 0 true (by decide) (by decide)).trans hien

/-- A write of ICCST at the supervisor level executes its command. -/
theorem exec_mtspr_iccst (rS : Reg) {s : State} (hl : msrPR s.msr = false) (he : s.platform.sprErrors = []) :
    exec (.mtspr 560 rS) s = .next (s.cacheCommand (s.r rS)).advance := by
  change execMtspr 560 rS s = _
  rw [execMtspr, sprAccess_allowed _ (by decide) (sprLevel_allows (.inl hl)) (sprError_none _ he)]
  rfl

/-- Settles O58: each command by its own lemma, in the state that has stored CMD. -/
theorem cacheCommandResult : Obligations.CacheCommandResult := by
  intro rS s hl he hs a command
  obtain ⟨hframe, hiccst⟩ := cacheCommand_frame s (s.r rS)
  have hmem : (s.cacheCommand (s.r rS)).mem = s.mem := mem_of_onlyCache hframe
  obtain ⟨hcmd, hien, hrest⟩ := commandIccst_bits hiccst
  have hs' : (withCommand s (s.r rS)).cacheSound := hs
  refine ⟨_, exec_mtspr_iccst rS hl he, hcmd, sameMemory_of_mem hmem, congrArg State.advance hframe,
    hien, hrest, ?unlockLine, ?nothing, ?onOff, ?unlockAll, ?invalidateAll, ?cached, ?locked, ?miss⟩
  case unlockLine =>
    intro hc
    rw [cacheCommand_unlockLine hc]
    exact unlockLine_result hs' a
  case nothing =>
    intro hc
    rw [cacheCommand_none hc]
    exact ⟨rfl, rfl⟩
  case onOff =>
    rintro (hc | hc)
    · rw [cacheCommand_enable hc]
      rfl
    · rw [cacheCommand_disable hc]
      rfl
  case unlockAll =>
    intro hc
    rw [cacheCommand_unlockAll hc]
    exact unlockAll_result (withCommand s (s.r rS))
  case invalidateAll =>
    intro hc
    rw [cacheCommand_invalidateAll hc]
    exact invalidateAll_result (withCommand s (s.r rS))
  case cached =>
    intro hc hin
    obtain ⟨hsame, hlru, hlines⟩ := loadLock_cached hs' (a := a) hin
    rw [cacheCommand_loadLock hc]
    exact ⟨(congrArg (· &&& 0x71FFFFFF#32) hsame).trans (withCommand_iccst_and s _), hlru, hlines⟩
  case locked =>
    intro hc hout hboth
    rw [cacheCommand_loadLock hc]
    rw [loadLock_bothLocked hs' (a := a) hout hboth]
    refine ⟨bit_setBit _ 11 11 true (by decide) (by decide), ?_, rfl⟩
    refine (bit_setBit _ 11 10 true (by decide) (by decide)).trans ?_
    exact bit_withCommand_iccst s _ 10
  case miss =>
    intro hc hout hsome
    rw [cacheCommand_loadLock hc]
    have h10 : bit (withCommand s (s.r rS)).iccst 10 = bit s.iccst 10 := bit_withCommand_iccst s _ 10
    have h11 : bit (withCommand s (s.r rS)).iccst 11 = bit s.iccst 11 := bit_withCommand_iccst s _ 11
    rw [← h10, ← h11]
    exact loadLock_miss_result hs' (a := a) hout hsome

end Sys2Proof.Proofs

/-! Delivered floating-point results: the registers and the FPSCR after them (43_fp_arith.md R346, R355). -/

namespace Sys2Proof.Proofs

open Sys2Proof Sys2Proof.Machine Sys2Proof.Laws

/-! The FPSCR. -/

/-- A word that has exactly the exception bits of a list. -/
def SignalsBits (set : Word) (sets : List Nat) : Prop :=
  (∀ k, k < 32 → bit set k = sets.contains k) ∧ ∀ k ∈ sets, k < 32 ∧ bit fpExceptionMask k = true

theorem bit_fpSetFRFI (f : Word) (fr fi : Bool) (k : Nat) (hk : k < 32) :
    bit (fpSetFRFI f fr fi) k = if k = 14 then fi else if k = 13 then fr else bit f k := by
  rw [fpSetFRFI, bit_setBit _ _ _ _ (by decide) hk, bit_setBit _ _ _ _ (by decide) hk]

theorem bit_fpSetFPRF (f : Word) (c : BitVec 5) (k : Nat) (hk : k < 32) :
    bit (fpSetFPRF f c) k = if 15 ≤ k ∧ k ≤ 19 then c.getLsbD (19 - k) else bit f k := by
  have hmask : bit 0x0001F000#32 k = decide (15 ≤ k ∧ k ≤ 19) := by interval_cases k <;> rfl
  rw [fpSetFPRF, bit_insertBits, hmask]
  by_cases h : 15 ≤ k ∧ k ≤ 19
  · rw [if_pos (decide_eq_true h), if_pos h]
    simp only [bit, BitVec.getLsbD_shiftLeft, BitVec.getLsbD_setWidth]
    rw [show 31 - k - 12 = 19 - k by omega, decide_eq_true (show 31 - k < 32 by omega),
      decide_eq_false (show ¬31 - k < 12 by omega), decide_eq_true (show 19 - k < 32 by omega)]
    simp
  · rw [if_neg (by simpa using h), if_neg h]

theorem bits_fpSetFPRF (f : Word) (c : BitVec 5) : bits (fpSetFPRF f c) 15 5 = c := by
  apply BitVec.eq_of_getLsbD_eq
  intro i hi
  rw [bits_getLsbD _ _ _ _ hi (by decide), bit_fpSetFPRF _ _ _ (by omega), if_pos (by omega)]
  congr 1
  omega

/-- The FPSCR with FR, FI and FPRF of a result, before its exception bits are signalled; `frfi` where the spec leaves FR and FI open. -/
def resultFields (f : Word) (r : FpResult) (frfi : Bool × Bool) : Word :=
  let g := fpSetFRFI f (orFree r.fr frfi.1) (orFree r.fi frfi.2)
  match r.fprf with
  | some c => fpSetFPRF g c
  | none => g

theorem bit_resultFields_other (f : Word) (r : FpResult) (frfi : Bool × Bool) (k : Nat) (hk : k < 32)
    (h : ¬(13 ≤ k ∧ k ≤ 20)) : bit (resultFields f r frfi) k = bit f k := by
  have hfrfi : bit (fpSetFRFI f (orFree r.fr frfi.1) (orFree r.fi frfi.2)) k = bit f k := by
    rw [bit_fpSetFRFI _ _ _ _ hk, if_neg (by omega), if_neg (by omega)]
  unfold resultFields
  cases r.fprf with
  | none => exact hfrfi
  | some c => exact (bit_fpSetFPRF _ c k hk).trans ((if_neg (by omega)).trans hfrfi)

/-- FR and FI are bits 13 and 14; FPRF does not cover them. -/
theorem bit_resultFields_frfi (f : Word) (r : FpResult) (frfi : Bool × Bool) :
    bit (resultFields f r frfi) 13 = orFree r.fr frfi.1 ∧ bit (resultFields f r frfi) 14 = orFree r.fi frfi.2 := by
  unfold resultFields
  cases r.fprf with
  | none => simp [bit_fpSetFRFI]
  | some c => simp [bit_fpSetFPRF, bit_fpSetFRFI]

theorem bits_resultFields_fprf (f : Word) (r : FpResult) (frfi : Bool × Bool) :
    bits (resultFields f r frfi) 15 5 = r.fprf.getD (bits f 15 5) := by
  unfold resultFields
  cases r.fprf with
  | none =>
    refine bits_congr (by decide) fun k h15 h20 => ?_
    rw [bit_fpSetFRFI _ _ _ _ (by omega), if_neg (by omega), if_neg (by omega)]
  | some c => exact bits_fpSetFPRF _ c

/-! The state after a result. -/

/-- The state in which an instruction ends that delivers a result without a test for exceptions after it. -/
def delivered (s : State) (frD : Reg) (rc : Bool) (r : FpResult) : State := (s.deliverResult frD rc r).advance

/-- The free value for FR and FI, drawn where the result leaves one of them open, and the state after the draw. -/
def drawFRFI (s : State) (r : FpResult) : Dword × State := if r.fr.isNone || r.fi.isNone then s.draw else (0, s)

/-- The state with the value of a result in its register. -/
def withValue (s : State) (frD : Reg) (r : FpResult) : State :=
  match r.value with
  | some v => (drawFRFI s r).2.setF frD v
  | none => (drawFRFI s r).2

theorem deliverResult_steps (s : State) (frD : Reg) (rc : Bool) (r : FpResult) :
    s.deliverResult frD rc r =
      ({ withValue s frD r with
          fpscr := fpSignal (resultFields s.fpscr r (dbit (drawFRFI s r).1 0, dbit (drawFRFI s r).1 1)) r.set }.setCauses
        false false false r.tiny).recordFp rc := rfl

theorem drawFRFI_state (s : State) (r : FpResult) :
    (drawFRFI s r).2 = { s with freeCount := (drawFRFI s r).2.freeCount } := by
  unfold drawFRFI
  split <;> rfl

/-- Writing the register changes nothing else but the count of free values. -/
theorem withValue_eq (s : State) (frD : Reg) (r : FpResult) :
    withValue s frD r = { s with fpr := (withValue s frD r).fpr, freeCount := (drawFRFI s r).2.freeCount } := by
  unfold withValue
  split
  · rw [drawFRFI_state]; rfl
  · rw [drawFRFI_state]

theorem deliverResult_fpscr (s : State) (frD : Reg) (rc : Bool) (r : FpResult) :
    ∃ frfi, (s.deliverResult frD rc r).fpscr = fpSignal (resultFields s.fpscr r frfi) r.set := by
  rw [deliverResult_steps, recordFp_fpscr, setCauses_fpscr]
  exact ⟨_, rfl⟩

theorem fpscrBecomes_delivered (s : State) (frD : Reg) (rc : Bool) {r : FpResult} {sets : List Nat}
    (h : SignalsBits r.set sets) :
    fpscrBecomes s (delivered s frD rc r) sets r.fr r.fi (some (r.fprf.getD (bits s.fpscr 15 5))) := by
  obtain ⟨frfi, hf⟩ := deliverResult_fpscr s frD rc r
  obtain ⟨h13, h14⟩ := bit_resultFields_frfi s.fpscr r frfi
  obtain ⟨hother, hfx, hsum, hfr, hfi, hfprf⟩ := fpscrBecomes_fpSignal (s := s) (t := delivered s frD rc r) hf h.1 h.2
    (bit_resultFields_other s.fpscr r frfi)
  refine ⟨hother, hfx, hsum, fun v hv => ?_, fun v hv => ?_, fun v hv => ?_⟩
  · rw [hfr _ rfl, h13, hv]; rfl
  · rw [hfi _ rfl, h14, hv]; rfl
  · rw [hfprf _ rfl, bits_resultFields_fprf]; exact Option.some.inj hv

theorem delivered_f {s : State} (frD : Reg) (rc : Bool) {r : FpResult} {v : Dword} (h : r.value = some v) :
    (delivered s frD rc r).f frD = v :=
  (deliverResult_f frD rc h frD).trans (if_pos rfl)

theorem delivered_fpr_none {s : State} (frD : Reg) (rc : Bool) {r : FpResult} (h : r.value = none) :
    (delivered s frD rc r).fpr = s.fpr := by
  rw [delivered, advance_fpr, deliverResult_steps, recordFp_fpr, setCauses_fpr]
  change (withValue s frD r).fpr = s.fpr
  rw [withValue, h]
  have hdraw := congrArg State.fpr (drawFRFI_state s r)
  exact hdraw

theorem sameFprsBut_delivered (s : State) (frD : Reg) (rc : Bool) (r : FpResult) :
    sameFprsBut s (delivered s frD rc r) [frD] := by
  intro n hn
  have hne : n ≠ frD := by simpa using hn
  cases h : r.value with
  | none => exact f_congr (delivered_fpr_none frD rc h) n
  | some v => exact (deliverResult_f frD rc h n).trans (if_neg hne)

theorem recordedFp_delivered (s : State) (frD : Reg) (rc : Bool) (r : FpResult) :
    recordedFp rc s (delivered s frD rc r) := by
  have hcr : (withValue s frD r).cr = s.cr := by rw [withValue_eq]
  exact recordedFp_recordFp rc s _ ((setCauses_cr ..).trans hcr)

theorem delivered_eq (s : State) (frD : Reg) (rc : Bool) (r : FpResult) :
    delivered s frD rc r =
      { s with
        fpr := (delivered s frD rc r).fpr
        fpscr := (delivered s frD rc r).fpscr
        fpecr := (delivered s frD rc r).fpecr
        cr := (delivered s frD rc r).cr
        pc := s.pc + 4
        freeCount := (delivered s frD rc r).freeCount } := by
  have h := congrArg State.advance (deliverResult_eq s frD rc r)
  exact h

theorem sameMemory_delivered (s : State) (frD : Reg) (rc : Bool) (r : FpResult) :
    sameMemory s (delivered s frD rc r) := by
  refine sameMemory_of_mem ?_
  rw [delivered_eq]

theorem causesAre_delivered (s : State) (frD : Reg) (rc : Bool) (r : FpResult) :
    causesAre false false false r.tiny s (delivered s frD rc r) := by
  have hfpecr : (withValue s frD r).fpecr = s.fpecr := by rw [withValue_eq]
  have h := causesAre_setCauses (s := s) false false false r.tiny
    (t := { withValue s frD r with
      fpscr := fpSignal (resultFields s.fpscr r (dbit (drawFRFI s r).1 0, dbit (drawFRFI s r).1 1)) r.set }) hfpecr
  unfold causesAre at h ⊢
  rwa [delivered, advance_fpecr, deliverResult_steps, recordFp_fpecr]

/-- FR and FI that a result gives need no free value. -/
theorem delivered_freeCount (s : State) (frD : Reg) (rc : Bool) {r : FpResult} (h : (r.fr.isNone || r.fi.isNone) = false) :
    (delivered s frD rc r).freeCount = s.freeCount := by
  rw [delivered, advance_freeCount, deliverResult_steps, recordFp_freeCount, setCauses_freeCount]
  change (withValue s frD r).freeCount = s.freeCount
  rw [withValue_eq, drawFRFI, h]
  rfl

theorem onlyFreeFpResult_delivered {s : State} (frD : Reg) (rc : Bool) (r : FpResult) (h : s.sie = false) :
    onlyFreeFpResult frD rc s (delivered s frD rc r) := by
  refine ⟨recordedFp_delivered s frD rc r, sameFprsBut_delivered s frD rc r, sameMemory_delivered s frD rc r, ?_⟩
  have hfpecr : (delivered s frD rc r).fpecr = s.fpecr := deliverResult_fpecr frD rc r h
  have heq := delivered_eq s frD rc r
  rwa [hfpecr] at heq

theorem onlyFpResult_delivered {s : State} (frD : Reg) (rc : Bool) {r : FpResult} (h : s.sie = false)
    (hr : (r.fr.isNone || r.fi.isNone) = false) : onlyFpResult frD rc s (delivered s frD rc r) := by
  obtain ⟨hcr, hfpr, hmem, heq⟩ := onlyFreeFpResult_delivered frD rc r h
  rw [delivered_freeCount s frD rc hr] at heq
  exact ⟨hcr, hfpr, hmem, heq⟩

theorem finishOutcome_result {s : State} (r : FpResult) (frD : Reg) (rc : Bool) (h : s.sie = false) :
    finishOutcome (.result r) frD rc s = .next (delivered s frD rc r) := by
  have hsie : (s.deliverResult frD rc r).sie = false := (congrArg (bit · 0) (deliverResult_fpecr frD rc r h)).trans h
  exact finishFp_plain hsie

end Sys2Proof.Proofs

/-! Floating-point arithmetic that rounds nothing: invalid operations, the zero divide, and NaNs (43_fp_arith.md R342, R347, R348). -/

namespace Sys2Proof.Proofs

open Sys2Proof Sys2Proof.Machine Sys2Proof.Laws

/-! The ends of the instructions, by the mode of exceptions (R346). -/

theorem fpTraps_of_preciseFloat {s : State} (h : s.preciseFloat) : s.fpTraps = true := by
  obtain ⟨-, hfe, hsie, -⟩ := h
  simp [State.fpTraps, hfe, hsie]

/-- Where the instruction delivers its results itself, an enabled exception bit does not trap. -/
theorem fpTraps_of_plainFloat {s : State} {sets : List Nat} (h : s.plainFloat sets) (hen : someEnabled s.fpscr sets) :
    s.fpTraps = false := by
  obtain ⟨-, -, hfe | hno⟩ := h
  · simp [State.fpTraps, hfe]
  · exact absurd hen hno

theorem raises_of_assist {i : Instr} {s : State} {frD : Reg} {rc : Bool}
    (hx : exec i s = finishOutcome .assist frD rc s) (h : s.inDebug = false) : raises .fpAssist 0 i s :=
  raises_of_exec hx rfl h

theorem signalsBits_zero : SignalsBits 0 [] := by
  refine ⟨fun k _ => ?_, by simp⟩
  simp [bit]

theorem signalsBits_one {a : Word} {k : Nat} (ha : a = bitMask k) (hk : k < 32) (h : bit fpExceptionMask k = true) :
    SignalsBits a [k] := by
  subst ha
  refine ⟨fun j hj => ?_, by simp [hk, h]⟩
  rw [bit_bitMask k j hk hj]
  simp

theorem SignalsBits.or {a b : Word} {as bs : List Nat} (ha : SignalsBits a as) (hb : SignalsBits b bs) :
    SignalsBits (a ||| b) (as ++ bs) := by
  refine ⟨fun k hk => ?_, fun k hk => ?_⟩
  · rw [bit_or, ha.1 k hk, hb.1 k hk]
    simp
  · exact (List.mem_append.mp hk).elim (ha.2 k) (hb.2 k)

theorem SignalsBits.maskIf {a : Word} {as : List Nat} (ha : SignalsBits a as) (c : Bool) :
    SignalsBits (maskIf c a) (if c then as else []) := by
  cases c
  · exact signalsBits_zero
  · exact ha

theorem SignalsBits.eq_zero {a : Word} (ha : SignalsBits a []) : a = 0 :=
  eq_of_bit fun k hk => (ha.1 k hk).trans (bit_zero k).symm

theorem SignalsBits.ne_zero {a : Word} {as : List Nat} (ha : SignalsBits a as) (h : as ≠ []) : a ≠ 0 := by
  obtain ⟨k, hk⟩ := List.exists_mem_of_ne_nil as h
  rintro rfl
  have hbit := ha.1 k (ha.2 k hk).1
  rw [List.contains_iff_mem.mpr hk] at hbit
  simp [bit] at hbit

section

variable {i : Instr} {s : State} {frD : Reg} {rc : Bool}

/-- A result with FR and FI 0 whose exception is not enabled; an exact result is one without an exception bit. -/
theorem deliversExactly_signalled {v : Dword} {set : Word} {sets : List Nat}
    (hx : exec i s = finishOutcome (.result (signalled set false v)) frD rc s) (h : s.sie = false)
    (hset : SignalsBits set sets) : deliversExactly i s frD rc v sets :=
  ⟨_, hx.trans (finishOutcome_result _ frD rc h), delivered_f frD rc rfl,
    fpscrBecomes_delivered s frD rc (r := signalled set false v) hset, onlyFpResult_delivered frD rc h rfl⟩

/-- The same with the exception enabled: frD and FPRF stay. -/
theorem deliversNothing_signalled {v : Dword} {set : Word} {sets : List Nat}
    (hx : exec i s = finishOutcome (.result (signalled set true v)) frD rc s) (h : s.sie = false)
    (hset : SignalsBits set sets) : deliversNothing i s rc sets := by
  have hfpr := delivered_fpr_none (s := s) frD rc (r := signalled set true v) rfl
  obtain ⟨hcr, -, hmem, heq⟩ := onlyFpResult_delivered (s := s) frD rc (r := signalled set true v) h rfl
  rw [hfpr] at heq
  exact ⟨_, hx.trans (finishOutcome_result _ frD rc h), hfpr,
    fpscrBecomes_delivered s frD rc (r := signalled set true v) hset, hcr, hmem, heq⟩

/-- An exception whose enable bit is `enabled`, in every mode: the result, the exception bit alone, or the assist exception. -/
theorem signalled_in_every_mode {v : Dword} {set : Word} {sets : List Nat} {enabled : Bool}
    (hx : msrFP s.msr = true →
      exec i s = finishOutcome (trapIf (enabled && s.fpTraps) (signalled set enabled v)) frD rc s)
    (hset : SignalsBits set sets) (hen : enabled = true ↔ someEnabled s.fpscr sets) :
    (s.plainFloat sets → enabled = false → deliversExactly i s frD rc v sets) ∧
      (s.plainFloat sets → enabled = true → deliversNothing i s rc sets) ∧ (s.assists sets → raises .fpAssist 0 i s) := by
  refine ⟨fun hplain hoff => ?_, fun hplain hon => ?_, fun hassist => ?_⟩
  · obtain ⟨hfp, hsie, -⟩ := hplain
    subst hoff
    exact deliversExactly_signalled (hx hfp) hsie hset
  · have htraps := fpTraps_of_plainFloat hplain (hen.mp hon)
    obtain ⟨hfp, hsie, -⟩ := hplain
    subst hon
    rw [htraps] at hx
    exact deliversNothing_signalled (hx hfp) hsie hset
  · obtain ⟨hprecise, hset⟩ := hassist
    have htraps := fpTraps_of_preciseFloat hprecise
    obtain ⟨hfp, -, -, hdbg⟩ := hprecise
    rw [hen.mpr hset, htraps] at hx
    exact raises_of_assist (hx hfp) hdbg

/-- An arithmetic instruction on operands that it computes with (R345, R353). -/
theorem exec_representable {x : FpForm} (h : fpForm s i = some x) (hrep : x.representable) (hfp : msrFP s.msr = true) :
    exec i s = finishOutcome (x.op.outcome x.p x.neg s.fpscr s.fpTraps s.sie) x.frD x.rc s := by
  have hden : ¬(x.p = .double ∧ x.op.operands.any isDenormal = true) := by
    rintro ⟨hp, hany⟩
    obtain ⟨d, hd, hd'⟩ := List.any_eq_true.mp hany
    rw [FpForm.representable, hp] at hrep
    simp [hrep d hd] at hd'
  rw [exec_fpForm h, fpArith, fpAvailable_on _ hfp, if_neg (not_undefinedSingle_of_representable fun _ => hrep),
    if_neg hden]

end

/-! Classes of patterns (R341). -/

theorem isNaN_of_isFinite {d : Dword} (h : isFinite d = true) : isNaN d = false := by
  have he : fpExp d ≠ 2047 := by simpa [isFinite] using h
  simp [isNaN, he]

theorem isInf_of_isFinite {d : Dword} (h : isFinite d = true) : isInf d = false := by
  have he : fpExp d ≠ 2047 := by simpa [isFinite] using h
  simp [isInf, he]

theorem isFinite_of_isZero {d : Dword} (h : isZero d = true) : isFinite d = true := by
  obtain ⟨he, -⟩ : fpExp d = 0 ∧ fpFrac d = 0 := by simpa [isZero] using h
  simp [isFinite, he]

theorem isFinite_of_class {d : Dword} (hn : isNaN d = false) (hi : isInf d = false) : isFinite d = true := by
  by_contra h
  have he : fpExp d = 2047 := by simpa [isFinite] using h
  have hf : fpFrac d = 0 := by simpa [isNaN, he] using hn
  simp [isInf, he, hf] at hi

theorem isZero_of_isInf {d : Dword} (h : isInf d = true) : isZero d = false := by
  obtain ⟨he, -⟩ : fpExp d = 2047 ∧ fpFrac d = 0 := by simpa [isInf] using h
  simp [isZero, he]

theorem isInf_of_isNaN {d : Dword} (h : isNaN d = true) : isInf d = false := by
  obtain ⟨-, hf⟩ : fpExp d = 2047 ∧ fpFrac d ≠ 0 := by simpa [isNaN] using h
  simp [isInf, hf]

theorem isZero_of_isNaN {d : Dword} (h : isNaN d = true) : isZero d = false := by
  obtain ⟨he, -⟩ : fpExp d = 2047 ∧ fpFrac d ≠ 0 := by simpa [isNaN] using h
  simp [isZero, he]

/-! The invalid-operation bits (R347). -/

/-- The word of the invalid operation of operands without a NaN. -/
def invalidWord : Option Nat → Word
  | none => 0
  | some k => bitMask k

theorem maskIf_isInf_or_isZero (a b : Dword) :
    maskIf (isInf a && isInf b) fpVXIDI ||| maskIf (isZero a && isZero b) fpVXZDZ =
      invalidWord (if isInf a && isInf b then some 9 else if isZero a && isZero b then some 10 else none) := by
  cases hinf : isInf a && isInf b
  · cases hzero : isZero a && isZero b <;> rfl
  · obtain ⟨ha, -⟩ : isInf a = true ∧ isInf b = true := by simpa using hinf
    simp [isZero_of_isInf ha, maskIf, invalidWord]
    rfl

/-- A multiply-add, by the sign that its addend has in the sum. -/
theorem maskIf_product {a c b : Dword} (neg : Bool) (ha : isNaN a = false) (hc : isNaN c = false) :
    maskIf (infTimesZero a c) fpVXIMZ ||| maskIf (productMinusInf a c neg b) fpVXISI =
      invalidWord (if infinityByZero a c then some 11
        else if (isInf a || isInf c) && isInf b && ((fpSign a != fpSign c) != neg) then some 8 else none) := by
  have hproduct : productMinusInf a c neg b =
      (!infinityByZero a c && ((isInf a || isInf c) && isInf b && ((fpSign a != fpSign c) != neg))) := by
    change (!isNaN a && !isNaN c && !infinityByZero a c && _ && _ && _) = _
    simp [ha, hc, Bool.and_assoc]
  rw [hproduct]
  change maskIf (infinityByZero a c) fpVXIMZ ||| _ = _
  cases infinityByZero a c
  · cases (isInf a || isInf c) && isInf b && ((fpSign a != fpSign c) != neg) <;> rfl
  · simp only [Bool.not_true, Bool.false_and]
    rfl

theorem isSNaN_of_not_isNaN {d : Dword} (h : isNaN d = false) : isSNaN d = false := by simp [isSNaN, h]

/-- Without a NaN there is one invalid operation at most. -/
theorem invalid_of_noNaN {op : FpOp} (h : ∀ d ∈ op.operands, isNaN d = false) : op.invalid = invalidWord op.invalidBit := by
  have hsnan : op.operands.any isSNaN = false := List.any_eq_false.mpr fun d hd => by simp [isSNaN_of_not_isNaN (h d hd)]
  unfold FpOp.invalid
  rw [hsnan]
  cases op with
  | add a b => simp only [FpOp.invalidBit]; cases isInf a && isInf b && fpSign a != fpSign b <;> rfl
  | sub a b => simp only [FpOp.invalidBit]; cases isInf a && isInf b && fpSign a == fpSign b <;> rfl
  | mul a c =>
    change _ ||| maskIf (infinityByZero a c) fpVXIMZ = _
    simp only [FpOp.invalidBit]; cases infinityByZero a c <;> rfl
  | div a b => exact (BitVec.zero_or).trans (maskIf_isInf_or_isZero a b)
  | madd a c b =>
    exact (BitVec.zero_or).trans (maskIf_product _ (h a (by simp [FpOp.operands])) (h c (by simp [FpOp.operands])))
  | msub a c b =>
    refine (BitVec.zero_or).trans ((maskIf_product _ (h a (by simp [FpOp.operands])) (h c (by simp [FpOp.operands]))).trans ?_)
    simp only [FpOp.invalidBit]
    cases fpSign a <;> cases fpSign c <;> cases fpSign b <;> rfl

/-- A NaN is neither an infinity nor a zero. -/
theorem not_both_of_isNaN {a b : Dword} (h : isNaN a = true ∨ isNaN b = true) :
    (isInf a && isInf b) = false ∧ (isZero a && isZero b) = false := by
  obtain h | h := h <;> simp [isInf_of_isNaN h, isZero_of_isNaN h]

theorem productMinusInf_of_isNaN {a c b : Dword} (neg : Bool) (h : isNaN a = true ∨ isNaN b = true ∨ isNaN c = true) :
    productMinusInf a c neg b = false := by
  obtain h | h | h := h <;> simp [productMinusInf, h, isInf_of_isNaN]

/-- The operation multiplies infinity by zero. -/
def timesInfinityByZero : FpOp → Bool
  | .mul a c | .madd a c _ | .msub a c _ => infinityByZero a c
  | _ => false

theorem invalidBit_eq_imz (op : FpOp) : decide (op.invalidBit = some 11) = timesInfinityByZero op := by
  cases op <;> simp only [FpOp.invalidBit, timesInfinityByZero] <;> split_ifs <;> simp [*]

/-- Beside a NaN only a signalling one and infinity times zero are invalid. -/
theorem invalid_of_NaN {op : FpOp} (h : op.operands.any isNaN = true) :
    op.invalid = maskIf (op.operands.any isSNaN) fpVXSNAN ||| maskIf (decide (op.invalidBit = some 11)) fpVXIMZ := by
  rw [invalidBit_eq_imz]
  unfold FpOp.invalid
  congr 1
  cases op with
  | add a b =>
    have hnan : isNaN a = true ∨ isNaN b = true := by simpa [FpOp.operands] using h
    simp [(not_both_of_isNaN hnan).1, timesInfinityByZero, maskIf]
  | sub a b =>
    have hnan : isNaN a = true ∨ isNaN b = true := by simpa [FpOp.operands] using h
    simp [(not_both_of_isNaN hnan).1, timesInfinityByZero, maskIf]
  | mul a c => rfl
  | div a b =>
    have hnan : isNaN a = true ∨ isNaN b = true := by simpa [FpOp.operands] using h
    simp [not_both_of_isNaN hnan, timesInfinityByZero, maskIf]
  | madd a c b =>
    have hnan : isNaN a = true ∨ isNaN b = true ∨ isNaN c = true := by simpa [FpOp.operands] using h
    have hproduct := productMinusInf_of_isNaN (fpSign b) hnan
    exact (congrArg (maskIf (infTimesZero a c) fpVXIMZ ||| maskIf · fpVXISI) hproduct).trans BitVec.or_zero
  | msub a c b =>
    have hnan : isNaN a = true ∨ isNaN b = true ∨ isNaN c = true := by simpa [FpOp.operands] using h
    have hproduct := productMinusInf_of_isNaN (!fpSign b) hnan
    exact (congrArg (maskIf (infTimesZero a c) fpVXIMZ ||| maskIf · fpVXISI) hproduct).trans BitVec.or_zero

theorem invalidBit_range {op : FpOp} {k : Nat} (h : op.invalidBit = some k) : 8 ≤ k ∧ k ≤ 11 := by
  cases op <;> simp only [FpOp.invalidBit] at h <;> split_ifs at h <;> cases h <;> decide

/-! The outcome of the decision steps 4 to 6 (R346). -/

section

variable {op : FpOp} (p : Precision) (neg : Bool) (f : Word) (traps sie : Bool)

theorem outcome_of_invalid (h : op.invalid ≠ 0) :
    op.outcome p neg f traps sie = trapIf (fpVE f && traps) (signalled op.invalid (fpVE f) (nanResult op.operands)) := by
  rw [FpOp.outcome, if_pos (bne_iff_ne.mpr h)]

theorem outcome_of_quietNaN (h : op.invalid = 0) (hn : op.operands.any isNaN = true) :
    op.outcome p neg f traps sie = .result (exactResult (nanResult op.operands)) := by
  rw [FpOp.outcome, if_neg (by simp [h]), if_pos hn]

theorem any_isNaN_of_noNaN (hn : ∀ d ∈ op.operands, isNaN d = false) : op.operands.any isNaN = false :=
  List.any_eq_false.mpr fun d hd => by simp [hn d hd]

theorem outcome_of_zeroDivide {sign : Bool} (hn : ∀ d ∈ op.operands, isNaN d = false) (h : op.invalidBit = none)
    (hz : op.zeroDivide = some sign) :
    op.outcome p neg f traps sie = trapIf (fpZE f && traps) (signalled fpZX (fpZE f) (infOf sign)) := by
  rw [FpOp.outcome, invalid_of_noNaN hn, h, if_neg (by simp [invalidWord]), if_neg (by simp [any_isNaN_of_noNaN hn]), hz]

theorem outcome_of_numbers (hn : ∀ d ∈ op.operands, isNaN d = false) (h : op.invalidBit = none)
    (hz : op.zeroDivide = none) :
    op.outcome p neg f traps sie = deliver f traps sie p neg (op.exact (fpRN f)) := by
  rw [FpOp.outcome, invalid_of_noNaN hn, h, if_neg (by simp [invalidWord]), if_neg (by simp [any_isNaN_of_noNaN hn]), hz]

theorem nanResult_of_noNaN (hn : ∀ d ∈ op.operands, isNaN d = false) : nanResult op.operands = qnan0 := by
  have hfind : op.operands.find? isNaN = none := List.find?_eq_none.mpr fun d hd => by simp [hn d hd]
  rw [nanResult, hfind]

theorem nanResult_of_find {d : Dword} (h : op.operands.find? isNaN = some d) : nanResult op.operands = quiet d := by
  rw [nanResult, h]

theorem infOf_eq (sign : Bool) : infOf sign = (BitVec.ofBool sign ++ 0x7FF0000000000000#63 : BitVec 64) := by
  cases sign <;> rfl

/-- The invalid-operation exceptions have one enable bit. -/
theorem someEnabled_invalid {sets : List Nat} (h : ∀ k ∈ sets, 7 ≤ k) (hne : sets ≠ []) :
    fpVE f = true ↔ someEnabled f sets := by
  have henable (k : Nat) (hk : k ∈ sets) : enableOf k = 24 := by
    have := h k hk
    unfold enableOf
    rw [if_neg (by omega), if_neg (by omega), if_neg (by omega), if_neg (by omega)]
  constructor
  · intro hve
    obtain ⟨k, hk⟩ := List.exists_mem_of_ne_nil sets hne
    exact ⟨k, hk, by rwa [henable k hk]⟩
  · rintro ⟨k, hk, hbit⟩
    rwa [henable k hk] at hbit

end

theorem eq_of_mem_ite {c : Prop} [Decidable c] {a k : Nat} (h : k ∈ if c then [a] else []) : k = a := by
  split at h <;> simp_all

/-- Settles O36: each case names its exception bit, its enable bit and its value, and ends in every mode as all signalled ones. -/
theorem fpInvalidOperationResult : Obligations.FpInvalidOperationResult := by
  constructor
  · intro i s x k hx hrep hn hk
    obtain ⟨h8, h11⟩ := invalidBit_range hk
    have hword : x.op.invalid = bitMask k := (invalid_of_noNaN hn).trans (congrArg invalidWord hk)
    have hexc : bit fpExceptionMask k = true := by interval_cases k <;> rfl
    have hset : SignalsBits x.op.invalid [k] := signalsBits_one hword (by omega) hexc
    refine signalled_in_every_mode (fun hfp => ?_) hset
      (someEnabled_invalid s.fpscr (by simp; omega) (by simp))
    rw [exec_representable hx hrep hfp, outcome_of_invalid _ _ _ _ _ (hset.ne_zero (by simp)), nanResult_of_noNaN hn]
    rfl
  · intro i s x a b hx hrep hop hb ha ha0
    have hfb := isFinite_of_isZero hb
    have hn : ∀ d ∈ x.op.operands, isNaN d = false := by
      simp [hop, FpOp.operands, isNaN_of_isFinite ha, isNaN_of_isFinite hfb]
    have hk : x.op.invalidBit = none := by simp [hop, FpOp.invalidBit, isInf_of_isFinite ha, ha0]
    have hz : x.op.zeroDivide = some (fpSign a != fpSign b) := by
      simp [hop, FpOp.zeroDivide, hb, ha0, isInf_of_isFinite ha]
    refine signalled_in_every_mode (enabled := bit s.fpscr 27) (fun hfp => ?_)
      (signalsBits_one rfl (by decide) (by decide) : SignalsBits fpZX [5]) (by simp [someEnabled, enableOf])
    rw [exec_representable hx hrep hfp, outcome_of_zeroDivide _ _ _ _ _ hn hk hz, infOf_eq]
    rfl

/-- Settles O37: with an invalid operation beside the NaN as for all signalled exceptions, else the exact result. -/
theorem fpNanOperand : Obligations.FpNanOperand := by
  intro i s x d hx hrep hd sets
  have hany : x.op.operands.any isNaN = true :=
    List.any_eq_true.mpr ⟨d, List.mem_of_find?_eq_some hd, List.find?_some hd⟩
  have hset : SignalsBits x.op.invalid sets := by
    have hsnan : SignalsBits fpVXSNAN [7] := signalsBits_one rfl (by decide) (by decide)
    have himz : SignalsBits fpVXIMZ [11] := signalsBits_one rfl (by decide) (by decide)
    have hor := (hsnan.maskIf (x.op.operands.any isSNaN)).or (himz.maskIf (decide (x.op.invalidBit = some 11)))
    rw [← invalid_of_NaN hany] at hor
    simpa only [decide_eq_true_eq] using hor
  have hve (hne : sets ≠ []) : fpVE s.fpscr = true ↔ someEnabled s.fpscr sets := by
    refine someEnabled_invalid s.fpscr (fun k hk => ?_) hne
    obtain h7 | h11 := (List.mem_append.mp hk).imp eq_of_mem_ite eq_of_mem_ite <;> omega
  have every (hne : sets ≠ []) := signalled_in_every_mode (i := i) (frD := x.frD) (rc := x.rc) (v := quiet d) (fun hfp => by
    rw [exec_representable hx hrep hfp, outcome_of_invalid _ _ _ _ _ (hset.ne_zero hne), nanResult_of_find hd]) hset (hve hne)
  refine ⟨fun hplain hoff => ?_, fun hplain hon hne => (every hne).2.1 hplain hon, fun hassist => ?_⟩
  · by_cases hne : sets = []
    · rw [hne] at hset hplain ⊢
      obtain ⟨hfp, hsie, -⟩ := hplain
      refine deliversExactly_signalled ((exec_representable hx hrep hfp).trans ?_) hsie signalsBits_zero
      rw [outcome_of_quietNaN _ _ _ _ _ hset.eq_zero hany, nanResult_of_find hd]
      rfl
    · exact (every hne).1 hplain (hoff.resolve_right hne)
  · have hne : sets ≠ [] := by
      obtain ⟨-, k, hk, -⟩ := hassist
      exact List.ne_nil_of_mem hk
    exact (every hne).2.2 hassist

end Sys2Proof.Proofs

/-! Exact numbers: the values of sums, products and quotients, and zeros and infinities (43_fp_arith.md R341, R343). -/

namespace Sys2Proof.Proofs

open Sys2Proof Sys2Proof.Machine Sys2Proof.Laws

/-! Values of patterns and of signed mantissas. -/

def mantissaOf (d : Dword) : Nat := if fpExp d = 0 then fpFrac d else 2 ^ 52 + fpFrac d

def unitOf (d : Dword) : Int := if fpExp d = 0 then -1074 else (fpExp d : Int) - 1075

theorem numOf_of_isInf {d : Dword} (h : isInf d = true) : numOf d = .inf (fpSign d) := by
  obtain ⟨he, -⟩ : fpExp d = 2047 ∧ fpFrac d = 0 := by simpa [isInf] using h
  rw [numOf, if_pos he]

theorem numOf_of_isFinite {d : Dword} (h : isFinite d = true) : numOf d = .fin (fpSign d) (mantissaOf d) (unitOf d) := by
  have he : fpExp d ≠ 2047 := by simpa [isFinite] using h
  unfold numOf mantissaOf unitOf
  rw [if_neg he]
  split <;> rfl

theorem value_fin (n : Bool) (m : Nat) (e : Int) : (Num.fin n m e).value = signFactor n * m * 2 ^ e := rfl

theorem fpValue_eq (d : Dword) : fpValue d = (Num.fin (fpSign d) (mantissaOf d) (unitOf d)).value := by
  unfold fpValue Num.value mantissaOf unitOf
  split <;> ring

theorem mantissaOf_lt (d : Dword) : mantissaOf d < 2 ^ 53 := by
  have := fpFrac_lt d
  unfold mantissaOf
  split <;> omega

theorem mantissaOf_eq_zero_iff (d : Dword) : mantissaOf d = 0 ↔ isZero d = true := by
  unfold mantissaOf isZero
  split <;> simp [*]

@[simp] theorem signFactor_not (n : Bool) : signFactor (!n) = -signFactor n := by cases n <;> simp [signFactor]

theorem signFactor_bne (n n' : Bool) : signFactor (n != n') = signFactor n * signFactor n' := by
  cases n <;> cases n' <;> simp [signFactor]

theorem signFactor_ne_zero (n : Bool) : signFactor n ≠ 0 := by cases n <;> simp [signFactor]

theorem abs_signFactor (n : Bool) : |signFactor n| = 1 := by cases n <;> simp [signFactor]

theorem cast_signedMant (n : Bool) (m : Nat) : ((signedMant n m : ℤ) : ℚ) = signFactor n * m := by
  cases n <;> simp [signedMant, signFactor]

theorem two_zpow_pos (k : ℤ) : (0 : ℚ) < 2 ^ k := by positivity

theorem signFactor_lt_zero (n : Bool) {x : ℚ} (h : 0 < x) : signFactor n * x < 0 ↔ n = true := by
  cases n <;> simp [signFactor, h, h.le]

/-! Sums and products (R343). -/

/-- The sum of two signed mantissas, in the smaller of the two units. -/
def totalOf (n : Bool) (m : Nat) (e : Int) (n' : Bool) (m' : Nat) (e' : Int) : Int :=
  signedMant n (m <<< (e - min e e').toNat) + signedMant n' (m' <<< (e' - min e e').toNat)

theorem add_fin (rn : BitVec 2) (n : Bool) (m : Nat) (e : Int) (n' : Bool) (m' : Nat) (e' : Int) :
    (Num.fin n m e).add rn (.fin n' m' e') =
      if totalOf n m e n' m' e' = 0 then .fin (sumZeroSign rn n n') 0 0
      else .fin (decide (totalOf n m e n' m' e' < 0)) (totalOf n m e n' m' e').natAbs (min e e') := rfl

/-- A mantissa shifted to a smaller unit. -/
theorem cast_shift_mul {m : Nat} {e low : Int} (h : low ≤ e) :
    ((m <<< (e - low).toNat : ℕ) : ℚ) * 2 ^ low = m * 2 ^ e := by
  obtain ⟨k, rfl⟩ : ∃ k : Nat, e = low + k := ⟨(e - low).toNat, by omega⟩
  rw [Nat.shiftLeft_eq, show (low + k - low).toNat = k by omega, zpow_add₀ (by norm_num), zpow_natCast]
  push_cast
  ring

theorem cast_totalOf (n : Bool) (m : Nat) (e : Int) (n' : Bool) (m' : Nat) (e' : Int) :
    (totalOf n m e n' m' e' : ℚ) * 2 ^ min e e' = (Num.fin n m e).value + (Num.fin n' m' e').value := by
  have hm := cast_shift_mul (m := m) (min_le_left e e')
  have hm' := cast_shift_mul (m := m') (min_le_right e e')
  rw [totalOf, Int.cast_add, cast_signedMant, cast_signedMant, value_fin, value_fin, mul_assoc (signFactor n),
    mul_assoc (signFactor n'), ← hm, ← hm']
  ring

/-- An integer is its sign times its magnitude. -/
theorem signFactor_mul_natAbs (t : ℤ) : signFactor (decide (t < 0)) * (t.natAbs : ℚ) = t := by
  rw [Nat.cast_natAbs]
  obtain h | h := lt_or_ge t 0
  · simp [signFactor, h, abs_of_neg h]
  · simp [signFactor, h, abs_of_nonneg h]

/-- A sum of finite numbers: its value, and the sign of a zero. -/
theorem add_fin_value (rn : BitVec 2) (n : Bool) (m : Nat) (e : Int) (n' : Bool) (m' : Nat) (e' : Int) :
    ∃ k a b, (Num.fin n m e).add rn (.fin n' m' e') = .fin k a b ∧
      (Num.fin k a b).value = (Num.fin n m e).value + (Num.fin n' m' e').value ∧
      ((Num.fin n m e).value + (Num.fin n' m' e').value = 0 → k = sumZeroSign rn n n') := by
  rw [add_fin, ← cast_totalOf]
  by_cases h : totalOf n m e n' m' e' = 0
  · exact ⟨_, _, _, if_pos h, by simp [h, Num.value], fun _ => rfl⟩
  · refine ⟨_, _, _, if_neg h, ?_, fun h0 => ?_⟩
    · rw [Num.value, signFactor_mul_natAbs]
    · simp [h, (two_zpow_pos _).ne'] at h0

theorem mul_fin_value (n : Bool) (m : Nat) (e : Int) (n' : Bool) (m' : Nat) (e' : Int) :
    (Num.fin (n != n') (m * m') (e + e')).value = (Num.fin n m e).value * (Num.fin n' m' e').value := by
  simp only [Num.value]
  rw [signFactor_bne, zpow_add₀ (by norm_num)]
  push_cast
  ring

theorem neg_fin_value (n : Bool) (m : Nat) (e : Int) : (Num.fin (!n) m e).value = -(Num.fin n m e).value := by
  simp [Num.value]

/-! Numbers that round as a rational number does. -/

/-- The magnitude m * 2^e is `x`, or m is odd, has more bits than any precision needs, and `x` lies between its neighbours (the
quotient of R343). -/
def Near (m : Nat) (e : Int) (x : ℚ) : Prop :=
  x = m * 2 ^ e ∨ (m % 2 = 1 ∧ 2 ^ 54 ≤ m ∧ ((m : ℚ) - 1) * 2 ^ e < x ∧ x < ((m : ℚ) + 1) * 2 ^ e)

/-- The exact number has the sign of `z` and its magnitude up to the last bit of a quotient. -/
def StandsFor (n : Bool) (m : Nat) (e : Int) (z : ℚ) : Prop :=
  (m = 0 ↔ z = 0) ∧ (z ≠ 0 → n = decide (z < 0) ∧ Near m e |z|)

theorem standsFor_of_near (n : Bool) {m : Nat} {e : Int} {x : ℚ} (hx : 0 < x) (h : Near m e x) :
    StandsFor n m e (signFactor n * x) := by
  have hm : m ≠ 0 := by
    rintro rfl
    obtain h | ⟨hodd, -⟩ := h
    · simp [h] at hx
    · simp at hodd
  refine ⟨by simp [hm, signFactor_ne_zero, hx.ne'], fun _ => ⟨?_, ?_⟩⟩
  · rw [Bool.eq_iff_iff, decide_eq_true_iff, signFactor_lt_zero n hx]
  · rwa [abs_mul, abs_signFactor, one_mul, abs_of_pos hx]

theorem standsFor_of_value {n : Bool} {m : Nat} {e : Int} {z : ℚ} (h : (Num.fin n m e).value = z) : StandsFor n m e z := by
  rw [value_fin, mul_assoc] at h
  subst h
  obtain rfl | hm := Nat.eq_zero_or_pos m
  · exact ⟨by simp, fun h => absurd (by simp) h⟩
  · exact standsFor_of_near n (by positivity) (.inl rfl)

/-- The quotient of R343, whose last bit tells of a remainder. -/
theorem near_quotient {m m' : Nat} (hm : m ≠ 0) (hm' : m' ≠ 0) (hlt : m' < 2 ^ 53) (e e' : Int) :
    Near (2 * ((m <<< 120) / m') + (if (m <<< 120) % m' = 0 then 0 else 1)) (e - e' - 121)
      ((m : ℚ) * 2 ^ e / (m' * 2 ^ e')) := by
  have hpos : (0 : ℚ) < m' := by exact_mod_cast Nat.pos_of_ne_zero hm'
  have hunit := two_zpow_pos (e - e' - 121)
  obtain ⟨a, ha⟩ : ∃ a, a = m <<< 120 := ⟨_, rfl⟩
  rw [← ha]
  rw [Nat.shiftLeft_eq] at ha
  have hdm := Nat.div_add_mod a m'
  have hmod := Nat.mod_lt a (Nat.pos_of_ne_zero hm')
  have hx : (m : ℚ) * 2 ^ e / (m' * 2 ^ e') = 2 * ((a : ℚ) / m') * 2 ^ (e - e' - 121) := by
    rw [ha, show e = e' + 121 + (e - e' - 121) by ring, zpow_add₀ (by norm_num), zpow_add₀ (by norm_num),
      show e' + 121 + (e - e' - 121) - e' - 121 = e - e' - 121 by ring]
    have := two_zpow_pos e'
    field_simp
    push_cast
    norm_num
  have hbig : 2 ^ 67 ≤ a / m' := by
    rw [Nat.le_div_iff_mul_le (Nat.pos_of_ne_zero hm'), ha]
    have hone : 1 ≤ m := Nat.one_le_iff_ne_zero.mpr hm
    omega
  rw [hx]
  by_cases hr : a % m' = 0
  · left
    have ha : (a : ℚ) = m' * (a / m' : ℕ) := by exact_mod_cast (by omega : a = m' * (a / m'))
    rw [if_pos hr, ha]
    field_simp
    push_cast
    ring
  · right
    have hlo : ((a / m' : ℕ) : ℚ) < a / m' := by
      rw [lt_div_iff₀ hpos]
      exact_mod_cast (by rw [mul_comm]; omega : a / m' * m' < a)
    have hhi : (a : ℚ) / m' < (a / m' : ℕ) + 1 := by
      rw [div_lt_iff₀ hpos]
      exact_mod_cast (by rw [add_mul, one_mul, mul_comm]; omega : a < (a / m' + 1) * m')
    rw [if_neg hr]
    push_cast
    refine ⟨by omega, by omega, ?_, ?_⟩
    · exact mul_lt_mul_of_pos_right (by linarith) hunit
    · exact mul_lt_mul_of_pos_right (by linarith) hunit

/-! The exact result of an operation on finite operands (R356 to R371). -/

theorem div_fin_zero (n : Bool) (e : Int) (n' : Bool) {m' : Nat} (e' : Int) (h : m' ≠ 0) :
    (Num.fin n 0 e).div (.fin n' m' e') = .fin (n != n') 0 0 := by
  simp [Sys2Proof.Machine.Num.div, h]

theorem div_fin (n : Bool) {m : Nat} (e : Int) (n' : Bool) {m' : Nat} (e' : Int) (h : m ≠ 0) (h' : m' ≠ 0) :
    (Num.fin n m e).div (.fin n' m' e') =
      .fin (n != n') (2 * ((m <<< 120) / m') + (if (m <<< 120) % m' = 0 then 0 else 1)) (e - e' - 121) := by
  simp [Sys2Proof.Machine.Num.div, h, h']

/-- A sum whose addends are given by their values. -/
theorem add_standsFor (rn : BitVec 2) {n n' : Bool} {m m' : Nat} {e e' : Int} {x y : ℚ} (hx : (Num.fin n m e).value = x)
    (hy : (Num.fin n' m' e').value = y) :
    ∃ k a b, (Num.fin n m e).add rn (.fin n' m' e') = .fin k a b ∧ StandsFor k a b (x + y) ∧
      (x + y = 0 → k = sumZeroSign rn n n') := by
  obtain ⟨k, a, b, hsum, hvalue, hzero⟩ := add_fin_value rn n m e n' m' e'
  rw [hx, hy] at hvalue hzero
  exact ⟨k, a, b, hsum, standsFor_of_value hvalue, hzero⟩

theorem div_standsFor {a b : Dword} (ha : isFinite a = true) (hb : isFinite b = true) (h0 : isZero b = false) :
    ∃ m e, (numOf a).div (numOf b) = .fin (fpSign a != fpSign b) m e ∧
      StandsFor (fpSign a != fpSign b) m e (fpValue a / fpValue b) := by
  have hmb : mantissaOf b ≠ 0 := by
    rw [Ne, mantissaOf_eq_zero_iff, h0]
    decide
  rw [numOf_of_isFinite ha, numOf_of_isFinite hb, fpValue_eq, fpValue_eq, value_fin, value_fin]
  by_cases hma : mantissaOf a = 0
  · rw [hma]
    exact ⟨_, _, div_fin_zero _ _ _ _ hmb, standsFor_of_value (by simp [value_fin])⟩
  · have hpos : (0 : ℚ) < mantissaOf a * 2 ^ unitOf a / (mantissaOf b * 2 ^ unitOf b) := by
      have hna : 0 < mantissaOf a := Nat.pos_of_ne_zero hma
      have hnb : 0 < mantissaOf b := Nat.pos_of_ne_zero hmb
      positivity
    have hsign : signFactor (fpSign a) * mantissaOf a * 2 ^ unitOf a / (signFactor (fpSign b) * mantissaOf b * 2 ^ unitOf b) =
        signFactor (fpSign a != fpSign b) * (mantissaOf a * 2 ^ unitOf a / (mantissaOf b * 2 ^ unitOf b)) := by
      rw [mul_assoc, mul_assoc, mul_div_mul_comm, signFactor_bne]
      cases fpSign b <;> simp [signFactor, div_neg]
    rw [hsign]
    exact ⟨_, _, div_fin _ _ _ _ hma hmb, standsFor_of_near _ hpos (near_quotient hma hmb (mantissaOf_lt b) _ _)⟩

/-- The exact result stands for the rational one, and a zero has the sign of `zeroSign`. -/
theorem exact_standsFor {op : FpOp} (rn : BitVec 2) (hf : ∀ d ∈ op.operands, isFinite d = true) (h0 : op.byZero = false) :
    ∃ n m e, op.exact rn = .fin n m e ∧ StandsFor n m e op.value ∧ (op.value = 0 → n = op.zeroSign rn) := by
  cases op with
  | add a b =>
    have ha := hf a (by simp [FpOp.operands])
    have hb := hf b (by simp [FpOp.operands])
    rw [FpOp.exact, numOf_of_isFinite ha, numOf_of_isFinite hb]
    exact add_standsFor rn (fpValue_eq a).symm (fpValue_eq b).symm
  | sub a b =>
    have ha := hf a (by simp [FpOp.operands])
    have hb := hf b (by simp [FpOp.operands])
    rw [FpOp.exact, numOf_of_isFinite ha, numOf_of_isFinite hb, FpOp.value, sub_eq_add_neg]
    exact add_standsFor rn (fpValue_eq a).symm (by rw [neg_fin_value, fpValue_eq])
  | mul a c =>
    have ha := hf a (by simp [FpOp.operands])
    have hc := hf c (by simp [FpOp.operands])
    rw [FpOp.exact, numOf_of_isFinite ha, numOf_of_isFinite hc]
    exact ⟨_, _, _, rfl, standsFor_of_value (by rw [mul_fin_value, FpOp.value, fpValue_eq a, fpValue_eq c]), fun _ => rfl⟩
  | div a b =>
    have ha := hf a (by simp [FpOp.operands])
    have hb := hf b (by simp [FpOp.operands])
    obtain ⟨m, e, hdiv, hstands⟩ := div_standsFor ha hb h0
    exact ⟨_, m, e, hdiv, hstands, fun _ => rfl⟩
  | madd a c b =>
    have ha := hf a (by simp [FpOp.operands])
    have hb := hf b (by simp [FpOp.operands])
    have hc := hf c (by simp [FpOp.operands])
    rw [FpOp.exact, numOf_of_isFinite ha, numOf_of_isFinite hb, numOf_of_isFinite hc]
    exact add_standsFor rn (by rw [mul_fin_value, fpValue_eq a, fpValue_eq c]) (fpValue_eq b).symm
  | msub a c b =>
    have ha := hf a (by simp [FpOp.operands])
    have hb := hf b (by simp [FpOp.operands])
    have hc := hf c (by simp [FpOp.operands])
    rw [FpOp.exact, numOf_of_isFinite ha, numOf_of_isFinite hb, numOf_of_isFinite hc, FpOp.value, sub_eq_add_neg]
    exact add_standsFor rn (by rw [mul_fin_value, fpValue_eq a, fpValue_eq c]) (by rw [neg_fin_value, fpValue_eq])

end Sys2Proof.Proofs

/-! Arithmetic whose result is exactly an infinity or a zero (43_fp_arith.md R341, R343, R346). -/

namespace Sys2Proof.Proofs

open Sys2Proof Sys2Proof.Machine Sys2Proof.Laws

theorem numOf_cases {d : Dword} (h : isNaN d = false) :
    (isInf d = true ∧ numOf d = .inf (fpSign d)) ∨
      (isInf d = false ∧ numOf d = .fin (fpSign d) (mantissaOf d) (unitOf d)) := by
  cases hi : isInf d
  · exact .inr ⟨rfl, numOf_of_isFinite (isFinite_of_class h hi)⟩
  · exact .inl ⟨rfl, numOf_of_isInf hi⟩

/-- A product of numbers: an infinity when a factor is one, else finite, with the sign of the factors. -/
theorem mul_numOf_cases {a c : Dword} (ha : isNaN a = false) (hc : isNaN c = false) :
    ((isInf a || isInf c) = true ∧ (numOf a).mul (numOf c) = .inf (fpSign a != fpSign c)) ∨
      ((isInf a || isInf c) = false ∧ ∃ m e, (numOf a).mul (numOf c) = .fin (fpSign a != fpSign c) m e) := by
  obtain ⟨hia, hna⟩ | ⟨hia, hna⟩ := numOf_cases ha <;> obtain ⟨hic, hnc⟩ | ⟨hic, hnc⟩ := numOf_cases hc <;>
    rw [hia, hic, hna, hnc]
  · exact .inl ⟨rfl, rfl⟩
  · exact .inl ⟨rfl, rfl⟩
  · exact .inl ⟨rfl, rfl⟩
  · exact .inr ⟨rfl, _, _, rfl⟩

/-- A sum with an infinity: the first addend that is one. -/
theorem add_infinite (rn : BitVec 2) {x y : Sys2Proof.Machine.Num} {n n' xi yi sign : Bool}
    (hx : (xi = true ∧ x = .inf n) ∨ (xi = false ∧ ∃ m e, x = .fin n m e)) (hy : yi = true → y = .inf n')
    (h : (if xi then some n else if yi then some n' else none) = some sign) : x.add rn y = .inf sign := by
  obtain ⟨rfl, rfl⟩ | ⟨rfl, m, e, rfl⟩ := hx
  · cases h
    rfl
  · cases yi
    · cases h
    · cases h
      rw [hy rfl]
      rfl

theorem exact_of_infinite {op : FpOp} {sign : Bool} (rn : BitVec 2) (hn : ∀ d ∈ op.operands, isNaN d = false)
    (hk : op.invalidBit = none) (h : op.infinite = some sign) : op.exact rn = .inf sign := by
  have hnumber {d : Dword} (hd : isNaN d = false) := (numOf_cases hd).imp_right
    (And.imp_right fun heq => (⟨_, _, heq⟩ : ∃ m e, numOf d = .fin (fpSign d) m e))
  cases op with
  | add a b =>
    exact add_infinite rn (hnumber (hn a (by simp [FpOp.operands]))) numOf_of_isInf h
  | sub a b =>
    exact add_infinite rn (hnumber (hn a (by simp [FpOp.operands])))
      (fun hb => congrArg Sys2Proof.Machine.Num.neg (numOf_of_isInf hb)) h
  | mul a c =>
    obtain ⟨hi, heq⟩ | ⟨hi, -⟩ := mul_numOf_cases (hn a (by simp [FpOp.operands])) (hn c (by simp [FpOp.operands]))
    · rw [FpOp.infinite, if_pos hi] at h
      rw [FpOp.exact, heq, Option.some.inj h]
    · simp [FpOp.infinite, hi] at h
  | div a b =>
    cases ha : isInf a
    · simp [FpOp.infinite, ha] at h
    · have hb : isInf b = false := by
        cases hb : isInf b
        · rfl
        · simp [FpOp.invalidBit, ha, hb] at hk
      have hfb := numOf_of_isFinite (isFinite_of_class (hn b (by simp [FpOp.operands])) hb)
      rw [FpOp.infinite, if_pos ha] at h
      rw [FpOp.exact, numOf_of_isInf ha, hfb, ← Option.some.inj h]
      rfl
  | madd a c b =>
    exact add_infinite rn (mul_numOf_cases (hn a (by simp [FpOp.operands])) (hn c (by simp [FpOp.operands])))
      numOf_of_isInf h
  | msub a c b =>
    exact add_infinite rn (mul_numOf_cases (hn a (by simp [FpOp.operands])) (hn c (by simp [FpOp.operands])))
      (fun hb => congrArg Sys2Proof.Machine.Num.neg (numOf_of_isInf hb)) h

/-- A division with an infinite operand, or none by a zero, is no zero divide. -/
theorem zeroDivide_of_infinite {op : FpOp} {sign : Bool} (h : op.infinite = some sign) : op.zeroDivide = none := by
  cases op with
  | div a b =>
    have ha : isInf a = true := by
      by_contra ha
      simp [FpOp.infinite, ha] at h
    simp [FpOp.zeroDivide, ha]
  | _ => rfl

theorem zeroDivide_of_byZero {op : FpOp} (h : op.byZero = false) : op.zeroDivide = none := by
  cases op with
  | div a b =>
    have hb : isZero b = false := h
    simp [FpOp.zeroDivide, hb]
  | _ => rfl

/-- A number over an infinity is a zero of the quotient's sign. -/
theorem exact_of_byInfinity {op : FpOp} (rn : BitVec 2) (h : op.byInfinity = true) :
    op.exact rn = .fin (op.zeroSign rn) 0 0 ∧ op.zeroDivide = none := by
  cases op with
  | div a b =>
    obtain ⟨ha, hb⟩ : isFinite a = true ∧ isInf b = true := by simpa [FpOp.byInfinity] using h
    rw [FpOp.exact, numOf_of_isFinite ha, numOf_of_isInf hb]
    exact ⟨rfl, by simp [FpOp.zeroDivide, isZero_of_isInf hb]⟩
  | _ => cases h

theorem zeroOf_eq (sign : Bool) : zeroOf sign = (BitVec.ofBool sign ++ 0#63 : BitVec 64) := by
  cases sign <;> rfl

theorem deliver_inf (f : Word) (traps sie : Bool) (p : Precision) (neg sign : Bool) :
    deliver f traps sie p neg (.inf sign) = .result (exactResult (infOf (sign != neg))) := rfl

theorem deliver_zero (f : Word) (traps sie : Bool) (p : Precision) (neg sign : Bool) (e : Int) :
    deliver f traps sie p neg (.fin sign 0 e) = .result (exactResult (zeroOf (sign != neg))) := rfl

/-- Settles O34: each clause names the exact result, which is delivered without a test of an enable. -/
theorem fpZeroAndInfinityResult : Obligations.FpZeroAndInfinityResult := by
  intro i s x hx hplain hrep hn hk
  obtain ⟨hfp, hsie, -⟩ := hplain
  have hexec (hz : x.op.zeroDivide = none) :=
    (exec_representable hx hrep hfp).trans
      (congrArg (finishOutcome · x.frD x.rc s) (outcome_of_numbers x.p x.neg s.fpscr s.fpTraps s.sie hn hk hz))
  refine ⟨fun sign hsign => ?_, fun hord hvalue => ?_, fun hinf => ?_⟩
  · have hdeliver := hexec (zeroDivide_of_infinite hsign)
    rw [exact_of_infinite _ hn hk hsign, deliver_inf, infOf_eq] at hdeliver
    exact deliversExactly_signalled hdeliver hsie signalsBits_zero
  · obtain ⟨hf, h0, -⟩ := hord
    obtain ⟨n, m, e, heq, ⟨hm, -⟩, hsign⟩ := exact_standsFor (fpRN s.fpscr) hf h0
    have hdeliver := hexec (zeroDivide_of_byZero h0)
    rw [heq, hm.mpr hvalue, hsign hvalue, deliver_zero, zeroOf_eq] at hdeliver
    exact deliversExactly_signalled hdeliver hsie signalsBits_zero
  · obtain ⟨heq, hz⟩ := exact_of_byInfinity (fpRN s.fpscr) hinf
    have hdeliver := hexec hz
    rw [heq, deliver_zero, zeroOf_eq] at hdeliver
    exact deliversExactly_signalled hdeliver hsie signalsBits_zero

end Sys2Proof.Proofs

/-! Rounding: the significand that `roundTo` keeps is the number it stands for, correctly rounded (43_fp_arith.md R344). -/

namespace Sys2Proof.Proofs

open Sys2Proof Sys2Proof.Machine Sys2Proof.Laws

/-! The increment. -/

/-- `n` units of size `u` are the magnitude `x` rounded in the mode `rn`; `neg` is the sign. -/
def RoundsToMultiple (rn : BitVec 2) (neg : Bool) (u x : ℚ) (n : Nat) (fr fi : Bool) : Prop :=
  |n * u - x| < u ∧ (fi = true ↔ n * u ≠ x) ∧ (fr = true ↔ x < n * u) ∧
    (rn = 0#2 → 2 * |n * u - x| ≤ u ∧ (2 * |n * u - x| = u → n % 2 = 0)) ∧ (rn = 1#2 → n * u ≤ x) ∧
    (rn = 2#2 → if neg then n * u ≤ x else x ≤ n * u) ∧ (rn = 3#2 → if neg then x ≤ n * u else n * u ≤ x)

/-- The dropped bits `rest` tell where `x` lies between `kept` units and one more. -/
structure Dropped (u x : ℚ) (kept rest half : Nat) : Prop where
  lower : kept * u ≤ x
  upper : x < (kept + 1) * u
  exact : rest = 0 ↔ x = kept * u
  below : rest < half ↔ 2 * x < (2 * kept + 1) * u
  above : half < rest ↔ (2 * kept + 1) * u < 2 * x

theorem mode_cases (rn : BitVec 2) : rn = 0#2 ∨ rn = 1#2 ∨ rn = 2#2 ∨ rn = 3#2 := by revert rn; decide

theorem roundUp_true {rn : BitVec 2} {neg odd : Bool} {rest half : Nat} (h : roundUp rn neg odd rest half = true) :
    rest ≠ 0 ∧ rn ≠ 1#2 ∧ (rn = 0#2 → half < rest ∨ rest = half ∧ odd = true) ∧ (rn = 2#2 → neg = false) ∧
      (rn = 3#2 → neg = true) := by
  obtain rfl | rfl | rfl | rfl := mode_cases rn <;> simp [roundUp] at h ⊢
  · obtain habove | ⟨⟨htie, hne⟩, hodd⟩ := h
    · exact ⟨by omega, .inl habove⟩
    · exact ⟨hne, .inr ⟨htie, hodd⟩⟩
  · exact h
  · exact h

theorem roundUp_false {rn : BitVec 2} {neg odd : Bool} {rest half : Nat} (h : roundUp rn neg odd rest half = false) :
    (rn = 0#2 → rest ≤ half ∧ (rest = half → rest = 0 ∨ odd = false)) ∧ (rn = 2#2 → rest = 0 ∨ neg = true) ∧
      (rn = 3#2 → rest = 0 ∨ neg = false) := by
  obtain rfl | rfl | rfl | rfl := mode_cases rn <;> simp [roundUp] at h ⊢
  · obtain ⟨hle, htie⟩ := h
    exact ⟨hle, fun heq => or_iff_not_imp_left.mpr (htie heq)⟩
  · exact or_iff_not_imp_left.mpr h
  · exact or_iff_not_imp_left.mpr h

section

variable {rn : BitVec 2} {neg : Bool} {u x : ℚ} {kept rest half : Nat}

theorem Dropped.rounds_down (h : Dropped u x kept rest half) (hinc : roundUp rn neg (kept % 2 == 1) rest half = false) :
    RoundsToMultiple rn neg u x kept false (rest != 0) := by
  obtain ⟨hlower, hupper, hexact, hbelow, habove⟩ := h
  obtain ⟨h0, h2, h3⟩ := roundUp_false hinc
  have habs : |(kept : ℚ) * u - x| = x - kept * u := by rw [abs_sub_comm, abs_of_nonneg (by linarith)]
  refine ⟨?_, ?_, ?_, fun hrn => ?_, fun _ => hlower, fun hrn => ?_, fun hrn => ?_⟩
  · rw [habs]; linarith
  · rw [bne_iff_ne, Ne, hexact, eq_comm]
  · simpa using hlower
  · obtain ⟨hle, htie⟩ := h0 hrn
    have hnotabove : 2 * x ≤ (2 * kept + 1) * u := not_lt.mp fun habv => absurd (habove.mpr habv) (by omega)
    rw [habs]
    refine ⟨by linarith, fun heq => ?_⟩
    have hhalf : rest = half := by
      have hnotbelow : ¬rest < half := fun hlt => absurd (hbelow.mp hlt) (by linarith)
      omega
    obtain hzero | hodd := htie hhalf
    · have := hexact.mp hzero
      linarith
    · simpa using hodd
  · obtain hzero | hneg := h2 hrn
    · simp [hexact.mp hzero]
    · simpa [hneg] using hlower
  · obtain hzero | hneg := h3 hrn
    · simp [hexact.mp hzero]
    · simpa [hneg] using hlower

theorem Dropped.rounds_up (h : Dropped u x kept rest half) (hinc : roundUp rn neg (kept % 2 == 1) rest half = true) :
    RoundsToMultiple rn neg u x (kept + 1) true (rest != 0) := by
  obtain ⟨hlower, hupper, hexact, hbelow, habove⟩ := h
  obtain ⟨hne, h1, h0, h2, h3⟩ := roundUp_true hinc
  have hlt : (kept : ℚ) * u < x := lt_of_le_of_ne hlower fun heq => hne (hexact.mpr heq.symm)
  unfold RoundsToMultiple
  push_cast
  have habs : |((kept : ℚ) + 1) * u - x| = (kept + 1) * u - x := abs_of_pos (by linarith)
  refine ⟨?_, ?_, ?_, fun hrn => ?_, fun hrn => absurd hrn h1, fun hrn => ?_, fun hrn => ?_⟩
  · rw [habs]; linarith
  · rw [bne_iff_ne]
    exact ⟨fun _ => hupper.ne', fun _ => hne⟩
  · simpa using hupper
  · have hnotbelow : (2 * kept + 1) * u ≤ 2 * x := not_lt.mp fun hbel => by
      have hlt := hbelow.mpr hbel
      obtain habv | ⟨htie, -⟩ := h0 hrn <;> omega
    rw [habs]
    refine ⟨by linarith, fun heq => ?_⟩
    obtain habv | ⟨-, hodd⟩ := h0 hrn
    · have := habove.mp habv
      linarith
    · have hodd : kept % 2 = 1 := by simpa using hodd
      omega
  · rw [h2 hrn]
    exact hupper.le
  · rw [h3 hrn]
    exact hupper.le

/-- The increment of R344 rounds correctly. -/
theorem roundUp_rounds (rn : BitVec 2) (neg : Bool) (h : Dropped u x kept rest half) :
    let inc := roundUp rn neg (kept % 2 == 1) rest half
    RoundsToMultiple rn neg u x (if inc then kept + 1 else kept) inc (rest != 0) := by
  intro inc
  cases hinc : inc
  · exact h.rounds_down hinc
  · exact h.rounds_up hinc

end

/-! The significand kept. -/

/-- A magnitude compares with a multiple of its unit as its mantissa does; a quotient, with even multiples. -/
theorem Near.compare {m c : Nat} {e : Int} {x : ℚ} (h : Near m e x) (hc : 2 ^ 54 ≤ m → c % 2 = 0) :
    (c * 2 ^ e < x ↔ c < m) ∧ (x = c * 2 ^ e ↔ m = c) ∧ (x < c * 2 ^ e ↔ m < c) := by
  have hpow := two_zpow_pos e
  obtain rfl | ⟨hodd, hbig, hlo, hhi⟩ := h
  · refine ⟨by rw [mul_lt_mul_iff_left₀ hpow, Nat.cast_lt], ?_, by rw [mul_lt_mul_iff_left₀ hpow, Nat.cast_lt]⟩
    rw [mul_left_inj' hpow.ne', Nat.cast_inj]
  · have heven := hc hbig
    obtain hlt | hgt : c + 1 ≤ m ∨ m + 1 ≤ c := by omega
    · have hle : (c : ℚ) * 2 ^ e ≤ (m - 1) * 2 ^ e := by
        refine mul_le_mul_of_nonneg_right ?_ hpow.le
        rw [le_sub_iff_add_le]
        exact_mod_cast hlt
      have hcx := hle.trans_lt hlo
      exact ⟨iff_of_true hcx (by omega), iff_of_false hcx.ne' (by omega), iff_of_false hcx.not_gt (by omega)⟩
    · have hle : ((m : ℚ) + 1) * 2 ^ e ≤ c * 2 ^ e := by
        refine mul_le_mul_of_nonneg_right ?_ hpow.le
        exact_mod_cast hgt
      have hxc := hhi.trans_le hle
      exact ⟨iff_of_false hxc.not_gt (by omega), iff_of_false hxc.ne (by omega), iff_of_true hxc (by omega)⟩

/-- The binade of a magnitude is that of its mantissa. -/
theorem Near.binade {m : Nat} {e : Int} {x : ℚ} (h : Near m e x) (hm : m ≠ 0) :
    (2 : ℚ) ^ exponentOf m e ≤ x ∧ x < 2 ^ (exponentOf m e + 1) := by
  have hlo := Nat.log2_self_le hm
  have hhi := Nat.lt_log2_self (n := m)
  have hlog (hbig : 2 ^ 54 ≤ m) : 54 ≤ m.log2 := (Nat.le_log2 hm).mpr hbig
  have heven (k : Nat) (hk : 1 ≤ k) : 2 ^ k % 2 = 0 := Nat.mod_eq_zero_of_dvd (dvd_pow_self 2 (by omega))
  obtain ⟨-, -, hbelow⟩ := h.compare (c := 2 ^ m.log2) fun hbig => heven _ (by have := hlog hbig; omega)
  obtain ⟨-, -, habove⟩ := h.compare (c := 2 ^ (m.log2 + 1)) fun _ => heven _ (by omega)
  have hpow (k : Nat) : ((2 ^ k : ℕ) : ℚ) * 2 ^ e = 2 ^ (e + k) := by
    rw [zpow_add₀ (by norm_num), zpow_natCast]
    push_cast
    ring
  rw [hpow] at hbelow habove
  refine ⟨not_lt.mp fun hlt => absurd (hbelow.mp hlt) (by omega), ?_⟩
  have hlt := habove.mpr hhi
  rwa [Nat.cast_succ, ← add_assoc] at hlt

/-- Cutting `drop` bits from a mantissa. -/
theorem Near.dropped {m : Nat} {e : Int} {x : ℚ} (h : Near m e x) {drop : Nat} (h1 : 1 ≤ drop)
    (h2 : 2 ^ 54 ≤ m → 2 ≤ drop) :
    Dropped (2 ^ (e + drop)) x (m >>> drop) (m % 2 ^ drop) (2 ^ (drop - 1)) := by
  obtain ⟨q, rfl⟩ : ∃ q, drop = q + 1 := ⟨drop - 1, by omega⟩
  have hunit : (2 : ℚ) ^ (e + (q + 1 : ℕ)) = (2 ^ (q + 1) : ℕ) * 2 ^ e := by
    rw [zpow_add₀ (by norm_num), zpow_natCast]
    push_cast
    ring
  have hdm := Nat.div_add_mod m (2 ^ (q + 1))
  have hmod := Nat.mod_lt m (show 0 < 2 ^ (q + 1) by positivity)
  have heven (hbig : 2 ^ 54 ≤ m) : 2 ^ q % 2 = 0 :=
    Nat.mod_eq_zero_of_dvd (dvd_pow_self 2 (by have := h2 hbig; omega))
  rw [Nat.shiftRight_eq_div_pow, hunit, Nat.add_sub_cancel]
  rw [pow_succ] at hdm hmod ⊢
  generalize m / (2 ^ q * 2) = kept at *
  generalize m % (2 ^ q * 2) = rest at *
  generalize 2 ^ q = half at *
  have hm : m = 2 * (kept * half) + rest := by rw [← hdm]; ring
  obtain ⟨hlower, hexact, -⟩ := h.compare (c := 2 * (kept * half)) (by omega)
  obtain ⟨-, -, hupper⟩ := h.compare (c := 2 * (kept * half) + 2 * half) (by omega)
  obtain ⟨habove, -, hbelow⟩ := h.compare (c := 2 * (kept * half) + half) (by omega)
  push_cast at *
  have hkept : (kept : ℚ) * (half * 2 * 2 ^ e) = 2 * (kept * half) * 2 ^ e := by ring
  have hnext : ((kept : ℚ) + 1) * (half * 2 * 2 ^ e) = (2 * (kept * half) + 2 * half) * 2 ^ e := by ring
  have hmiddle : (2 * (kept : ℚ) + 1) * (half * 2 * 2 ^ e) = 2 * ((2 * (kept * half) + half) * 2 ^ e) := by ring
  refine ⟨?_, ?_, ?_, ?_, ?_⟩
  · rw [hkept]
    obtain heq | hlt := (Nat.zero_le rest).eq_or_lt
    · exact (hexact.mpr (by omega)).ge
    · exact (hlower.mpr (by omega)).le
  · rw [hnext, hupper]
    omega
  · rw [hkept, hexact]
    omega
  · rw [hmiddle, mul_lt_mul_iff_right₀ two_pos, hbelow]
    omega
  · rw [hmiddle, mul_lt_mul_iff_right₀ two_pos, habove]
    omega

/-! The result of `roundTo`. -/

theorem roundTo_short {p : Precision} (rn : BitVec 2) (neg : Bool) {m : Nat} (e : Int) (h : Nat.log2 m + 1 ≤ p.width) :
    roundTo p rn neg m e =
      { sig := m <<< (p.width - (Nat.log2 m + 1)), exp := exponentOf m e, fr := false, fi := false } := by
  rw [roundTo, if_pos h]

/-- The significand `n` of a long mantissa, of the precision's width or one more. -/
def normalize (p : Precision) (n : Nat) (top : Int) (fr fi : Bool) : Rounded :=
  if n = 2 ^ p.width then { sig := 2 ^ (p.width - 1), exp := top + 1, fr := fr, fi := fi }
  else { sig := n, exp := top, fr := fr, fi := fi }

theorem roundTo_long {p : Precision} (rn : BitVec 2) (neg : Bool) {m : Nat} (e : Int) (h : p.width < Nat.log2 m + 1) :
    let drop := Nat.log2 m + 1 - p.width
    let inc := roundUp rn neg ((m >>> drop) % 2 == 1) (m % 2 ^ drop) (2 ^ (drop - 1))
    roundTo p rn neg m e =
      normalize p (if inc then m >>> drop + 1 else m >>> drop) (exponentOf m e) inc (m % 2 ^ drop != 0) := by
  rw [roundTo, if_neg (not_le.mpr h)]
  rfl

/-- A multiple of the unit of the binade of `z` that is |z| rounded makes a correct rounding of `z`. -/
theorem rounds_of_multiple {p : Precision} {rn : BitVec 2} {z : ℚ} {r : Rounded} {n : Nat} {k : Int}
    (hk : 2 ^ k ≤ |z| ∧ |z| < 2 ^ (k + 1)) (hsig : 2 ^ (p.width - 1) ≤ r.sig ∧ r.sig < 2 ^ p.width)
    (hmag : r.magnitude p = n * 2 ^ (k - p.width + 1)) (hn : 2 ^ (p.width - 1) ≤ n) (heven : n % 2 = 0 → r.sig % 2 = 0)
    (h : RoundsToMultiple rn (decide (z < 0)) (2 ^ (k - p.width + 1)) |z| n r.fr r.fi) : Rounds p rn z r := by
  obtain ⟨hclose, hfi, hfr, h0, h1, h2, h3⟩ := h
  have hfloor : (2 : ℚ) ^ k ≤ n * 2 ^ (k - p.width + 1) := by
    have hw : 1 ≤ p.width := by cases p <;> decide
    calc (2 : ℚ) ^ k = (2 ^ (p.width - 1) : ℕ) * 2 ^ (k - p.width + 1) := by
          push_cast
          rw [← zpow_natCast, ← zpow_add₀ (by norm_num)]
          congr 1
          omega
      _ ≤ n * 2 ^ (k - p.width + 1) := mul_le_mul_of_nonneg_right (by exact_mod_cast hn) (two_zpow_pos _).le
  unfold Rounds
  rw [hmag]
  refine ⟨k, hk.1, hk.2, hsig.1, hsig.2, hfloor, hclose, hfi, hfr, fun hrn => ?_, h1, ?_, ?_⟩
  · exact ⟨(h0 hrn).1, fun htie => heven ((h0 hrn).2 htie)⟩
  · simpa using h2
  · simpa using h3

theorem roundsToMultiple_refl (rn : BitVec 2) (neg : Bool) {u x : ℚ} {n : Nat} (hu : 0 < u) (h : n * u = x) :
    RoundsToMultiple rn neg u x n false false := by
  subst h
  simp [RoundsToMultiple, hu, hu.le, hu.ne]

theorem width_range (p : Precision) : 2 ≤ p.width ∧ p.width ≤ 53 := by cases p <;> decide

/-- Normalizing keeps the magnitude, and a carry leaves an even significand. -/
theorem normalize_result {p : Precision} {n : Nat} (top : Int) (fr fi : Bool)
    (hn : 2 ^ (p.width - 1) ≤ n ∧ n ≤ 2 ^ p.width) :
    let r := normalize p n top fr fi
    (2 ^ (p.width - 1) ≤ r.sig ∧ r.sig < 2 ^ p.width) ∧ r.magnitude p = n * 2 ^ (top - p.width + 1) ∧
      (n % 2 = 0 → r.sig % 2 = 0) ∧ r.fr = fr ∧ r.fi = fi := by
  obtain ⟨hw, -⟩ := width_range p
  intro r
  by_cases hcarry : n = 2 ^ p.width
  · have hr : r = { sig := 2 ^ (p.width - 1), exp := top + 1, fr := fr, fi := fi } := if_pos hcarry
    rw [hr]
    refine ⟨⟨le_rfl, Nat.pow_lt_pow_right (by decide) (by omega)⟩, ?_, fun _ => ?_, rfl, rfl⟩
    · rw [hcarry, Rounded.magnitude]
      push_cast
      rw [← zpow_natCast, ← zpow_natCast, ← zpow_add₀ (by norm_num), ← zpow_add₀ (by norm_num)]
      congr 1
      omega
    · exact Nat.mod_eq_zero_of_dvd (dvd_pow_self 2 (by omega))
  · have hr : r = { sig := n, exp := top, fr := fr, fi := fi } := if_neg hcarry
    rw [hr]
    exact ⟨⟨hn.1, lt_of_le_of_ne hn.2 hcarry⟩, rfl, id, rfl, rfl⟩

theorem normalize_exp (p : Precision) (n : Nat) (top : Int) (fr fi : Bool) :
    top ≤ (normalize p n top fr fi).exp ∧ (normalize p n top fr fi).exp ≤ top + 1 := by
  unfold normalize
  split
  · exact ⟨(lt_add_one top).le, le_rfl⟩
  · exact ⟨le_rfl, (lt_add_one top).le⟩

theorem roundTo_exp (p : Precision) (rn : BitVec 2) (neg : Bool) (m : Nat) (e : Int) :
    exponentOf m e ≤ (roundTo p rn neg m e).exp ∧ (roundTo p rn neg m e).exp ≤ exponentOf m e + 1 := by
  obtain h | h := le_or_gt (Nat.log2 m + 1) p.width
  · rw [roundTo_short rn neg e h]
    exact ⟨le_rfl, (lt_add_one _).le⟩
  · rw [roundTo_long rn neg e h]
    exact normalize_exp ..

/-- A mantissa that fits is exact. -/
theorem roundTo_short_rounds {p : Precision} (rn : BitVec 2) {z : ℚ} {m : Nat} {e : Int} (hm : m ≠ 0) (h : Near m e |z|)
    (hlen : Nat.log2 m + 1 ≤ p.width) : Rounds p rn z (roundTo p rn (decide (z < 0)) m e) := by
  obtain ⟨-, hw⟩ := width_range p
  have hlo := Nat.log2_self_le hm
  have hhi := Nat.lt_log2_self (n := m)
  obtain ⟨k, hk⟩ : ∃ k, p.width = Nat.log2 m + 1 + k := ⟨p.width - (Nat.log2 m + 1), by omega⟩
  have hexact : |z| = m * 2 ^ e := by
    refine h.resolve_right fun ⟨_, hbig, _⟩ => ?_
    have := (Nat.le_log2 hm).mpr hbig
    omega
  have hmag : ((m <<< k : ℕ) : ℚ) * 2 ^ (exponentOf m e - p.width + 1) = |z| := by
    have hunit : exponentOf m e - p.width + 1 = e - k := by
      rw [exponentOf, hk]
      omega
    rw [hexact, Nat.shiftLeft_eq, hunit, zpow_sub₀ (by norm_num), zpow_natCast]
    push_cast
    field_simp
  rw [roundTo_short rn _ e hlen, show p.width - (m.log2 + 1) = k by omega]
  have hsig : 2 ^ (p.width - 1) ≤ m <<< k ∧ m <<< k < 2 ^ p.width := by
    rw [Nat.shiftLeft_eq, hk, show m.log2 + 1 + k - 1 = m.log2 + k by omega, pow_add, pow_add _ (m.log2 + 1)]
    exact ⟨Nat.mul_le_mul_right _ hlo, Nat.mul_lt_mul_of_pos_right hhi (by positivity)⟩
  exact rounds_of_multiple (h.binade hm) hsig rfl hsig.1 id (roundsToMultiple_refl rn _ (two_zpow_pos _) hmag)

/-- A longer one is cut, and what is dropped decides the increment. -/
theorem roundTo_long_rounds {p : Precision} (rn : BitVec 2) {z : ℚ} {m : Nat} {e : Int} (hm : m ≠ 0) (h : Near m e |z|)
    (hlen : p.width < Nat.log2 m + 1) : Rounds p rn z (roundTo p rn (decide (z < 0)) m e) := by
  obtain ⟨hw2, hw⟩ := width_range p
  have hlo := Nat.log2_self_le hm
  have hhi := Nat.lt_log2_self (n := m)
  obtain ⟨drop, hdrop⟩ : ∃ drop, Nat.log2 m + 1 = p.width + drop := ⟨Nat.log2 m + 1 - p.width, by omega⟩
  have hcut := h.dropped (drop := drop) (by omega) fun hbig => by
    have := (Nat.le_log2 hm).mpr hbig
    omega
  have hrounds := roundUp_rounds rn (decide (z < 0)) hcut
  rw [show e + (drop : Int) = exponentOf m e - p.width + 1 by unfold exponentOf; omega] at hrounds
  have hkept : 2 ^ (p.width - 1) ≤ m >>> drop ∧ m >>> drop < 2 ^ p.width := by
    rw [Nat.shiftRight_eq_div_pow, Nat.le_div_iff_mul_le (by positivity), Nat.div_lt_iff_lt_mul (by positivity),
      ← pow_add, ← pow_add, ← hdrop, show p.width - 1 + drop = m.log2 by omega]
    exact ⟨hlo, hhi⟩
  rw [roundTo_long rn _ e hlen, show m.log2 + 1 - p.width = drop by omega]
  generalize roundUp rn (decide (z < 0)) _ _ _ = inc at hrounds ⊢
  have hn : 2 ^ (p.width - 1) ≤ (if inc then m >>> drop + 1 else m >>> drop) ∧
      (if inc then m >>> drop + 1 else m >>> drop) ≤ 2 ^ p.width := by
    split <;> omega
  obtain ⟨hsig, hmag, heven, hfr, hfi⟩ := normalize_result (exponentOf m e) inc (m % 2 ^ drop != 0) hn
  refine rounds_of_multiple (h.binade hm) hsig hmag hn.1 heven ?_
  rw [hfr, hfi]
  exact hrounds

theorem roundTo_rounds {p : Precision} (rn : BitVec 2) {z : ℚ} {m : Nat} {e : Int} (hm : m ≠ 0) (h : Near m e |z|) :
    Rounds p rn z (roundTo p rn (decide (z < 0)) m e) :=
  (le_or_gt (Nat.log2 m + 1) p.width).elim (roundTo_short_rounds rn hm h) (roundTo_long_rounds rn hm h)

end Sys2Proof.Proofs

/-! Results that are rounded: their patterns, their range, and the instructions that deliver them (43_fp_arith.md R344 to R354). -/

namespace Sys2Proof.Proofs

open Sys2Proof Sys2Proof.Machine Sys2Proof.Laws

/-! The pattern of a rounded magnitude (R340). -/

theorem fields_of_append (n : Bool) (e : BitVec 11) (f : BitVec 52) :
    fpSign (BitVec.ofBool n ++ e ++ f : BitVec 64) = n ∧ fpExp (BitVec.ofBool n ++ e ++ f : BitVec 64) = e.toNat ∧
      fpFrac (BitVec.ofBool n ++ e ++ f : BitVec 64) = f.toNat := by
  refine ⟨?_, ?_, ?_⟩
  · rw [fpSign_eq]
    have houter : (BitVec.ofBool n ++ e ++ f : BitVec 64).getLsbD 63 = (BitVec.ofBool n ++ e).getLsbD 11 :=
      BitVec.getLsbD_append.trans (if_neg (by decide))
    have hinner : (BitVec.ofBool n ++ e).getLsbD 11 = (BitVec.ofBool n).getLsbD 0 :=
      BitVec.getLsbD_append.trans (if_neg (by decide))
    rw [houter, hinner]
    simp
  · refine congrArg BitVec.toNat (BitVec.eq_of_getLsbD_eq fun i hi => ?_)
    have houter : (BitVec.ofBool n ++ e ++ f : BitVec 64).getLsbD (52 + i) = (BitVec.ofBool n ++ e).getLsbD i :=
      BitVec.getLsbD_append.trans ((if_neg (by omega)).trans (by rw [Nat.add_sub_cancel_left]))
    have hinner : (BitVec.ofBool n ++ e).getLsbD i = e.getLsbD i := BitVec.getLsbD_append.trans (if_pos hi)
    rw [BitVec.getLsbD_extractLsb', houter, hinner, decide_eq_true hi, Bool.true_and]
  · refine congrArg BitVec.toNat (BitVec.eq_of_getLsbD_eq fun i hi => ?_)
    have houter : (BitVec.ofBool n ++ e ++ f : BitVec 64).getLsbD i = f.getLsbD i :=
      BitVec.getLsbD_append.trans (if_pos hi)
    rw [BitVec.getLsbD_extractLsb', Nat.zero_add, houter, decide_eq_true hi, Bool.true_and]

/-- A rounded magnitude whose exponent lies in the range of normalized doubles has its value as a pattern. -/
theorem hasValue_patternOf {p : Precision} (neg : Bool) {r : Rounded} {adjust : Int}
    (hsig : 2 ^ (p.width - 1) ≤ r.sig ∧ r.sig < 2 ^ p.width) (hlo : 1 ≤ r.exp + adjust + 1023)
    (hhi : r.exp + adjust + 1023 ≤ 2046) : hasValue (patternOf p neg r adjust) neg (r.magnitude p * 2 ^ adjust) := by
  obtain ⟨hsign, hexp, hfrac⟩ :=
    fields_of_append neg (BitVec.ofInt 11 (r.exp + adjust + 1023)) (BitVec.ofNat 52 (r.sig <<< (53 - p.width)))
  change fpSign (patternOf p neg r adjust) = _ at hsign
  change fpExp (patternOf p neg r adjust) = _ at hexp
  change fpFrac (patternOf p neg r adjust) = _ at hfrac
  have he : (fpExp (patternOf p neg r adjust) : ℤ) = r.exp + adjust + 1023 := by
    rw [hexp, BitVec.toNat_ofInt]
    omega
  have hf : 2 ^ 52 + fpFrac (patternOf p neg r adjust) = r.sig * 2 ^ (53 - p.width) := by
    have hw := width_range p
    have hlo : 2 ^ 52 ≤ r.sig * 2 ^ (53 - p.width) := by
      calc 2 ^ 52 = 2 ^ (p.width - 1) * 2 ^ (53 - p.width) := by rw [← pow_add]; congr 1; omega
        _ ≤ _ := Nat.mul_le_mul_right _ hsig.1
    have hhi : r.sig * 2 ^ (53 - p.width) < 2 ^ 53 := by
      calc r.sig * 2 ^ (53 - p.width) < 2 ^ p.width * 2 ^ (53 - p.width) :=
            Nat.mul_lt_mul_of_pos_right hsig.2 (by positivity)
        _ = 2 ^ 53 := by rw [← pow_add]; congr 1; omega
    rw [hfrac, BitVec.toNat_ofNat, Nat.shiftLeft_eq]
    omega
  refine ⟨?_, hsign, ?_⟩
  · have hne : fpExp (patternOf p neg r adjust) ≠ 2047 := by omega
    simpa [isFinite] using hne
  · rw [fpValue, hsign, if_neg (by omega), hf, he, Rounded.magnitude]
    have hunit : (2 : ℚ) ^ (53 - p.width) * 2 ^ (r.exp + adjust + 1023 - 1075) = 2 ^ (r.exp - p.width + 1) * 2 ^ adjust := by
      have hw := width_range p
      rw [← zpow_natCast, ← zpow_add₀ (by norm_num), ← zpow_add₀ (by norm_num)]
      congr 1
      omega
    push_cast
    rw [mul_assoc (r.sig : ℚ), hunit, ← mul_assoc (r.sig : ℚ)]

/-! The range of the results. -/

/-- A multiple of 2^-h of magnitude below 2^h. -/
def InReach (h : ℕ) (v : ℚ) : Prop := (∃ n : ℤ, v = n * 2 ^ (-h : ℤ)) ∧ |v| < 2 ^ h

theorem InReach.mono {h k : ℕ} {v : ℚ} (hv : InReach h v) (hk : h ≤ k) : InReach k v := by
  obtain ⟨⟨n, rfl⟩, hlt⟩ := hv
  refine ⟨⟨n * 2 ^ (k - h), ?_⟩, hlt.trans_le (pow_le_pow_right₀ (by norm_num) hk)⟩
  rw [show (-h : ℤ) = (k - h : ℕ) + (-k : ℤ) by omega, zpow_add₀ (by norm_num), zpow_natCast]
  push_cast
  ring

theorem InReach.add {h : ℕ} {v w : ℚ} (hv : InReach h v) (hw : InReach h w) : InReach (h + 1) (v + w) := by
  obtain ⟨⟨n, hn⟩, hvlt⟩ := hv
  obtain ⟨⟨k, hk⟩, hwlt⟩ := hw
  refine ⟨⟨(n + k) * 2, ?_⟩, ?_⟩
  · rw [hn, hk, show (-h : ℤ) = 1 + (-(h + 1 : ℕ) : ℤ) by omega, zpow_add₀ (by norm_num), zpow_one]
    push_cast
    ring
  · rw [pow_succ]
    linarith [abs_add_le v w]

theorem InReach.neg {h : ℕ} {v : ℚ} (hv : InReach h v) : InReach h (-v) := by
  obtain ⟨⟨n, rfl⟩, hlt⟩ := hv
  exact ⟨⟨-n, by push_cast; ring⟩, by rwa [abs_neg]⟩

theorem InReach.mul {h : ℕ} {v w : ℚ} (hv : InReach h v) (hw : InReach h w) : InReach (h + h) (v * w) := by
  obtain ⟨⟨n, hn⟩, hvlt⟩ := hv
  obtain ⟨⟨k, hk⟩, hwlt⟩ := hw
  refine ⟨⟨n * k, ?_⟩, ?_⟩
  · rw [hn, hk, show (-(h + h : ℕ) : ℤ) = -h + -h by omega, zpow_add₀ (by norm_num)]
    push_cast
    ring
  · rw [abs_mul, pow_add]
    exact mul_lt_mul'' hvlt hwlt (abs_nonneg v) (abs_nonneg w)

/-- A number that is not 0 is at least one unit. -/
theorem InReach.bounds {h : ℕ} {v : ℚ} (hv : InReach h v) (h0 : v ≠ 0) : (2 : ℚ) ^ (-h : ℤ) ≤ |v| ∧ |v| < 2 ^ (h : ℤ) := by
  obtain ⟨⟨n, rfl⟩, hlt⟩ := hv
  refine ⟨?_, by rwa [zpow_natCast]⟩
  have hpow := two_zpow_pos (-h)
  have hn : n ≠ 0 := by
    rintro rfl
    simp at h0
  rw [abs_mul, abs_of_pos hpow]
  exact le_mul_of_one_le_left hpow.le (by exact_mod_cast Int.one_le_abs hn)

theorem InReach.div_bounds {h : ℕ} {v w : ℚ} (hv : InReach h v) (hw : InReach h w) (h0 : v / w ≠ 0) :
    (2 : ℚ) ^ (-(h + h : ℕ) : ℤ) ≤ |v / w| ∧ |v / w| < 2 ^ ((h + h : ℕ) : ℤ) := by
  obtain ⟨hv0, hw0⟩ := div_ne_zero_iff.mp h0
  obtain ⟨hvlo, hvhi⟩ := hv.bounds hv0
  obtain ⟨hwlo, hwhi⟩ := hw.bounds hw0
  have hpos : 0 < |w| := abs_pos.mpr hw0
  rw [abs_div, le_div_iff₀ hpos, div_lt_iff₀ hpos]
  constructor
  · calc (2 : ℚ) ^ (-(h + h : ℕ) : ℤ) * |w| ≤ 2 ^ (-(h + h : ℕ) : ℤ) * 2 ^ (h : ℤ) :=
          mul_le_mul_of_nonneg_left hwhi.le (two_zpow_pos _).le
      _ = 2 ^ (-h : ℤ) := by rw [← zpow_add₀ (by norm_num)]; congr 1; omega
      _ ≤ |v| := hvlo
  · calc |v| < 2 ^ (h : ℤ) := hvhi
      _ = 2 ^ ((h + h : ℕ) : ℤ) * 2 ^ (-h : ℤ) := by rw [← zpow_add₀ (by norm_num)]; congr 1; omega
      _ ≤ 2 ^ ((h + h : ℕ) : ℤ) * |w| := mul_le_mul_of_nonneg_left hwlo (two_zpow_pos _).le

/-- The reach of the operands of a precision. -/
def reachOf : Precision → ℕ
  | .single => 201
  | .double => 1074

theorem inReach_of_fpExp {d : Dword} {h : ℕ} (h0 : fpExp d ≠ 0) (hlo : 1075 ≤ fpExp d + h) (hhi : fpExp d < 1023 + h) :
    InReach h (fpValue d) := by
  have hm := mantissaOf_lt d
  have hu : unitOf d = (fpExp d : ℤ) - 1075 := if_neg h0
  rw [fpValue_eq, value_fin, hu]
  constructor
  · refine ⟨signedMant (fpSign d) (mantissaOf d) * 2 ^ (fpExp d + h - 1075), ?_⟩
    rw [Int.cast_mul, cast_signedMant, show (fpExp d : ℤ) - 1075 = (fpExp d + h - 1075 : ℕ) + (-h : ℤ) by omega,
      zpow_add₀ (by norm_num), zpow_natCast]
    push_cast
    ring
  · rw [abs_mul, abs_mul, abs_signFactor, one_mul, Nat.abs_cast, abs_of_pos (two_zpow_pos _)]
    calc (mantissaOf d : ℚ) * 2 ^ ((fpExp d : ℤ) - 1075) < (2 ^ 53 : ℕ) * 2 ^ ((fpExp d : ℤ) - 1075) :=
          mul_lt_mul_of_pos_right (by exact_mod_cast hm) (two_zpow_pos _)
      _ = 2 ^ ((53 : ℕ) + ((fpExp d : ℤ) - 1075)) := by rw [zpow_add₀ (by norm_num), zpow_natCast]; push_cast; ring
      _ ≤ 2 ^ (h : ℤ) := zpow_le_zpow_right₀ (by norm_num) (by omega)
      _ = 2 ^ h := zpow_natCast ..

theorem inReach_of_isZero {d : Dword} (h : ℕ) (hd : isZero d = true) : InReach h (fpValue d) := by
  have hm := (mantissaOf_eq_zero_iff d).mpr hd
  rw [fpValue_eq, value_fin, hm]
  exact ⟨⟨0, by simp⟩, by simp⟩

/-- A finite double that is not denormalized. -/
theorem inReach_double {d : Dword} (hd : isDenormal d = false) : InReach 1074 (fpValue d) := by
  by_cases h0 : fpExp d = 0
  · exact inReach_of_isZero _ (by simpa [isDenormal, isZero, h0] using hd)
  · have hlt := fpExp_lt d
    exact inReach_of_fpExp h0 (by omega) (by omega)

/-- A finite number of single format. -/
theorem inReach_single {d : Dword} (hf : isFinite d = true) (hd : singleOK d = true) : InReach 201 (fpValue d) := by
  have hclass : isZero d = true ∨ 874 ≤ fpExp d ∧ fpExp d ≤ 1150 := by
    simpa [singleOK, isNaN_of_isFinite hf, isInf_of_isFinite hf] using (Bool.and_eq_true_iff.mp hd).2
  obtain h0 | ⟨hlo, hhi⟩ := hclass
  · exact inReach_of_isZero _ h0
  · exact inReach_of_fpExp (by omega) (by omega) (by omega)

/-- The operands of an arithmetic instruction, as many as there are for its precision. -/
theorem inReach_operand {x : FpForm} (hx : x.ordinary) {d : Dword} (hd : d ∈ x.op.operands) :
    InReach (reachOf x.p) (fpValue d) := by
  obtain ⟨hf, -, hrep⟩ := hx
  unfold FpForm.representable at hrep
  cases hp : x.p <;> rw [hp] at hrep
  · exact inReach_single (hf d hd) (hrep d hd)
  · exact inReach_double (hrep d hd)

/-- The result of an operation on operands within a reach. -/
theorem value_bounds {op : FpOp} {h : ℕ} (hd : ∀ d ∈ op.operands, InReach h (fpValue d)) (h0 : op.value ≠ 0) :
    (2 : ℚ) ^ (-(h + h + 1 : ℕ) : ℤ) ≤ |op.value| ∧ |op.value| < 2 ^ ((h + h + 1 : ℕ) : ℤ) := by
  have hsum {v w y : ℚ} (hv : InReach h v) (hw : InReach h w) (hy : InReach h y) : InReach (h + h + 1) (v * w + y) :=
    (hv.mul hw).add (hy.mono (Nat.le_add_left h h))
  cases op with
  | add a b =>
    have hd : InReach h (fpValue a) ∧ InReach h (fpValue b) := by simpa [FpOp.operands] using hd
    exact ((hd.1.add hd.2).mono (by omega)).bounds h0
  | sub a b =>
    have hd : InReach h (fpValue a) ∧ InReach h (fpValue b) := by simpa [FpOp.operands] using hd
    rw [FpOp.value, sub_eq_add_neg] at h0 ⊢
    exact ((hd.1.add hd.2.neg).mono (by omega)).bounds h0
  | mul a c =>
    have hd : InReach h (fpValue a) ∧ InReach h (fpValue c) := by simpa [FpOp.operands] using hd
    exact ((hd.1.mul hd.2).mono (by omega)).bounds h0
  | div a b =>
    have hd : InReach h (fpValue a) ∧ InReach h (fpValue b) := by simpa [FpOp.operands] using hd
    obtain ⟨hlo, hhi⟩ := hd.1.div_bounds hd.2 h0
    exact ⟨(zpow_le_zpow_right₀ (by norm_num) (by omega)).trans hlo,
      hhi.trans_le (zpow_le_zpow_right₀ (by norm_num) (by omega))⟩
  | madd a c b =>
    have hd : InReach h (fpValue a) ∧ InReach h (fpValue b) ∧ InReach h (fpValue c) := by simpa [FpOp.operands] using hd
    exact (hsum hd.1 hd.2.2 hd.2.1).bounds h0
  | msub a c b =>
    have hd : InReach h (fpValue a) ∧ InReach h (fpValue b) ∧ InReach h (fpValue c) := by simpa [FpOp.operands] using hd
    rw [FpOp.value, sub_eq_add_neg] at h0 ⊢
    exact (hsum hd.1 hd.2.2 hd.2.1.neg).bounds h0

/-- The number of an instruction lies so far within the range of the double format that the exponent adjusted as R349 and R350 ask
is one of a normalized double. -/
theorem computes_bounds {s : State} {i : Instr} {x : RoundForm} (h : computes s i x) (h0 : x.z ≠ 0) :
    (2 : ℚ) ^ (-(x.p.adjust + 1000)) ≤ |x.z| ∧ |x.z| < 2 ^ (x.p.adjust + 1000) := by
  have hwiden {z : ℚ} {k l : ℤ} (hz : (2 : ℚ) ^ (-k) ≤ |z| ∧ |z| < 2 ^ k) (hk : k ≤ l) : (2 : ℚ) ^ (-l) ≤ |z| ∧ |z| < 2 ^ l :=
    ⟨(zpow_le_zpow_right₀ (by norm_num) (by omega)).trans hz.1,
      hz.2.trans_le (zpow_le_zpow_right₀ (by norm_num) hk)⟩
  obtain ⟨y, -, hord, rfl⟩ | ⟨frB, -, -, hden, hx⟩ := h
  · refine hwiden (value_bounds (fun d hd => inReach_operand hord hd) h0) ?_
    dsimp only
    cases y.p <;> decide
  · rw [hx] at h0 ⊢
    exact hwiden ((inReach_double hden).bounds h0) (show (1074 : ℤ) ≤ 192 + 1000 by decide)

/-! The instructions that round (R346, R391). -/

theorem invalidBit_of_ordinary {x : FpForm} (h : x.ordinary) : x.op.invalidBit = none := by
  obtain ⟨hf, h0, -⟩ := h
  have hinf : ∀ d ∈ x.op.operands, isInf d = false := fun d hd => isInf_of_isFinite (hf d hd)
  generalize x.op = op at *
  cases op with
  | add a b | sub a b =>
    have ha := hinf a (by simp [FpOp.operands])
    simp [FpOp.invalidBit, ha]
  | mul a c =>
    have hac : isInf a = false ∧ isInf c = false := by simpa [FpOp.operands] using hinf
    simp [FpOp.invalidBit, infinityByZero, hac]
  | div a b =>
    have ha := hinf a (by simp [FpOp.operands])
    have hb : isZero b = false := h0
    simp [FpOp.invalidBit, ha, hb]
  | madd a c b | msub a c b =>
    have habc : isInf a = false ∧ isInf b = false ∧ isInf c = false := by simpa [FpOp.operands] using hinf
    simp [FpOp.invalidBit, infinityByZero, habc]

/-- An instruction that computes a number delivers an exact one that stands for it. -/
theorem exec_computes {s : State} {i : Instr} {x : RoundForm} (h : computes s i x) :
    ∃ n m e, StandsFor n m e x.z ∧ (msrFP s.msr = true →
      exec i s = finishOutcome (deliver s.fpscr s.fpTraps s.sie x.p x.neg (.fin n m e)) x.frD x.rc s) := by
  obtain ⟨y, hy, hord, rfl⟩ | ⟨frB, hi, hf, hden, hx⟩ := h
  · have hk := invalidBit_of_ordinary hord
    obtain ⟨hf, h0, hrep⟩ := hord
    obtain ⟨n, m, e, hexact, hstands, -⟩ := exact_standsFor (fpRN s.fpscr) hf h0
    refine ⟨n, m, e, hstands, fun hfp => ?_⟩
    rw [exec_representable hy hrep hfp,
      outcome_of_numbers _ _ _ _ _ (fun d hd => isNaN_of_isFinite (hf d hd)) hk (zeroDivide_of_byZero h0), hexact]
  · have hn := isNaN_of_isFinite hf
    refine ⟨_, _, _, standsFor_of_value (z := x.z) ((fpValue_eq (s.f frB)).symm.trans ?_), fun hfp => ?_⟩
    · rw [hx]
    · rw [← numOf_of_isFinite hf, hi]
      change execFrsp x.frD frB x.rc s = _
      rw [execFrsp, fpAvailable_on _ hfp, if_neg (by simp [hden]), roundSingleOutcome,
        if_neg (by simp [isSNaN_of_not_isNaN hn]), if_neg (by simp [hn]), hx]

/-- The rounding `r` of the number of an instruction: its exponent is within the range, and decides what is delivered. -/
structure RoundedBy (s : State) (i : Instr) (x : RoundForm) (r : Rounded) : Prop where
  rounds : Rounds x.p (fpRN s.fpscr) x.z r
  lower : -(x.p.adjust + 1000) ≤ r.exp
  upper : r.exp ≤ x.p.adjust + 1000
  tiny : |x.z| < x.p.smallest → r.exp ≤ x.p.minExp ∧ (msrFP s.msr = true → exec i s =
    finishOutcome (tinyOutcome s.fpscr s.fpTraps s.sie x.p (decide (x.z < 0)) x.neg r) x.frD x.rc s)
  overflow : x.p.maxExp < r.exp → msrFP s.msr = true → exec i s =
    finishOutcome (overflowOutcome s.fpscr s.fpTraps x.p (decide (x.z < 0)) x.neg r) x.frD x.rc s
  normal : x.p.smallest ≤ |x.z| → r.exp ≤ x.p.maxExp → x.p.minExp ≤ r.exp ∧ (msrFP s.msr = true → exec i s =
    finishOutcome (trapIf (r.fi && fpXE s.fpscr && s.fpTraps) (roundedResult x.p x.sign r 0 (maskIf r.fi fpXX) false))
      x.frD x.rc s)

theorem deliver_of_ne_zero (f : Word) (traps sie : Bool) (p : Precision) (neg sign : Bool) {m : Nat} (e : Int) (h : m ≠ 0) :
    deliver f traps sie p neg (.fin sign m e) =
      if exponentOf m e < p.minExp then tinyOutcome f traps sie p sign neg (roundTo p (fpRN f) sign m e)
      else if p.maxExp < (roundTo p (fpRN f) sign m e).exp then
        overflowOutcome f traps p sign neg (roundTo p (fpRN f) sign m e)
      else trapIf ((roundTo p (fpRN f) sign m e).fi && fpXE f && traps)
        (roundedResult p (sign != neg) (roundTo p (fpRN f) sign m e) 0
          (maskIf (roundTo p (fpRN f) sign m e).fi fpXX) false) := by
  rw [deliver, if_neg h]

theorem exists_roundedBy {s : State} {i : Instr} {x : RoundForm} (h : computes s i x) (h0 : x.z ≠ 0) :
    ∃ r, RoundedBy s i x r := by
  obtain ⟨hlo, hhi⟩ := computes_bounds h h0
  obtain ⟨n, m, e, ⟨hm, hstands⟩, hexec⟩ := exec_computes h
  obtain ⟨rfl, hnear⟩ := hstands h0
  have hm0 : m ≠ 0 := fun hzero => h0 (hm.mp hzero)
  obtain ⟨hfloor, hceil⟩ := hnear.binade hm0
  obtain ⟨hexplo, hexphi⟩ := roundTo_exp x.p (fpRN s.fpscr) (decide (x.z < 0)) m e
  have hbinlo : -(x.p.adjust + 1000) < exponentOf m e + 1 :=
    (zpow_lt_zpow_iff_right₀ (by norm_num)).mp (hlo.trans_lt hceil)
  have hbinhi : exponentOf m e < x.p.adjust + 1000 := (zpow_lt_zpow_iff_right₀ (by norm_num)).mp (hfloor.trans_lt hhi)
  have hsmall : exponentOf m e < x.p.minExp ↔ |x.z| < x.p.smallest := by
    constructor
    · exact fun hlt => hceil.trans_le (zpow_le_zpow_right₀ (by norm_num) (by omega))
    · exact fun hlt => (zpow_lt_zpow_iff_right₀ (by norm_num)).mp (hfloor.trans_lt hlt)
  have hrange : x.p.minExp ≤ x.p.maxExp := by cases x.p <;> decide
  refine ⟨roundTo x.p (fpRN s.fpscr) (decide (x.z < 0)) m e, roundTo_rounds _ hm0 hnear, by omega, by omega, ?_, ?_, ?_⟩
  · intro hlt
    have hexp := hsmall.mpr hlt
    refine ⟨by omega, fun hfp => ?_⟩
    rw [hexec hfp, deliver_of_ne_zero _ _ _ _ _ _ e hm0, if_pos hexp]
  · intro hover hfp
    rw [hexec hfp, deliver_of_ne_zero _ _ _ _ _ _ e hm0, if_neg (by omega), if_pos hover]
  · intro hle hover
    have hexp : ¬exponentOf m e < x.p.minExp := fun hexp => absurd (hsmall.mp hexp) (not_lt.mpr hle)
    refine ⟨by omega, fun hfp => ?_⟩
    rw [hexec hfp, deliver_of_ne_zero _ _ _ _ _ _ e hm0, if_neg hexp, if_neg (by omega)]
    rfl

end Sys2Proof.Proofs

/-! Rounded results in every mode of exceptions: ordinary, overflow, tiny (43_fp_arith.md R344, R349 to R352, R354). -/

namespace Sys2Proof.Proofs

open Sys2Proof Sys2Proof.Machine Sys2Proof.Laws

/-! Delivered results. -/

section

variable {i : Instr} {s : State} {frD : Reg} {rc : Bool}

/-- A result whose FR and FI may be free. -/
theorem delivers_free {r : FpResult} {v : Dword} {sets : List Nat} (hx : exec i s = finishOutcome (.result r) frD rc s)
    (hsie : s.sie = false) (hv : r.value = some v) (hc : r.fprf = some (fprfOf v)) (hset : SignalsBits r.set sets) :
    ∃ t, exec i s = .next t ∧ t.f frD = v ∧ fpscrBecomes s t sets r.fr r.fi (some (fprfOf (t.f frD))) ∧
      onlyFreeFpResult frD rc s t := by
  have hf := delivered_f (s := s) frD rc hv
  have hbecomes := fpscrBecomes_delivered s frD rc hset
  rw [hc, Option.getD_some, ← hf] at hbecomes
  exact ⟨_, hx.trans (finishOutcome_result r frD rc hsie), hf, hbecomes, onlyFreeFpResult_delivered frD rc r hsie⟩

/-- A rounded result. -/
theorem delivers_rounded {p : Precision} {neg : Bool} {r : Rounded} {adjust : Int} {set : Word} {tiny : Bool}
    {sets : List Nat} (hx : exec i s = finishOutcome (.result (roundedResult p neg r adjust set tiny)) frD rc s)
    (hsie : s.sie = false) (hset : SignalsBits set sets)
    (hv : hasValue (patternOf p neg r adjust) neg (r.magnitude p * 2 ^ adjust)) :
    ∃ t, exec i s = .next t ∧ hasValue (t.f frD) neg (r.magnitude p * 2 ^ adjust) ∧
      fpscrBecomes s t sets (some r.fr) (some r.fi) (some (fprfOf (t.f frD))) ∧ onlyFpResult frD rc s t := by
  have hf := delivered_f (s := s) frD rc (r := roundedResult p neg r adjust set tiny) rfl
  refine ⟨_, hx.trans (finishOutcome_result _ frD rc hsie), by rwa [hf], ?_, onlyFpResult_delivered frD rc hsie rfl⟩
  rw [hf]
  exact fpscrBecomes_delivered s frD rc (r := roundedResult p neg r adjust set tiny) hset

/-- In SIE mode with exceptions ignored an instruction ends as outside it. -/
theorem finishOutcome_ignored (r : FpResult) (h : msrFE s.msr = false) :
    finishOutcome (.result r) frD rc s = .next (delivered s frD rc r) := by
  have hmsr : (s.deliverResult frD rc r).msr = s.msr := by rw [deliverResult_eq]
  have htest := fpEnabledTest_off (s := (s.deliverResult frD rc r).advance) (s.deliverResult frD rc r).pc 0x0010
    (by rw [advance_msr, hmsr, h]; simp)
  rw [finishOutcome, finishFp, htest, ite_self]
  rfl

end

/-! Exception bits. -/

theorem signalsBits_OX : SignalsBits fpOX [3] := signalsBits_one rfl (by decide) (by decide)
theorem signalsBits_UX : SignalsBits fpUX [4] := signalsBits_one rfl (by decide) (by decide)
theorem signalsBits_XX : SignalsBits fpXX [6] := signalsBits_one rfl (by decide) (by decide)

theorem signalsBits_inexact (fi : Bool) : SignalsBits (maskIf fi fpXX) (inexactBit fi) := signalsBits_XX.maskIf fi

theorem someEnabled_inexact (f : Word) (fi : Bool) : someEnabled f (inexactBit fi) ↔ fi = true ∧ fpXE f = true := by
  cases fi <;> simp [someEnabled, inexactBit, enableOf, fpXE]

theorem someEnabled_of_mem {f : Word} {sets : List Nat} {k b : Nat} (hk : k ∈ sets) (hb : enableOf k = b)
    (h : bit f b = true) : someEnabled f sets := ⟨k, hk, by rwa [hb]⟩

/-! The rounding of an instruction. -/

section

variable {s : State} {i : Instr} {x : RoundForm} {r : Rounded}

theorem RoundedBy.sig_range (h : RoundedBy s i x r) : 2 ^ (x.p.width - 1) ≤ r.sig ∧ r.sig < 2 ^ x.p.width := by
  obtain ⟨k, -, -, hlo, hhi, -⟩ := h.rounds
  exact ⟨hlo, hhi⟩

theorem precision_range (p : Precision) :
    (p.maxExp ≤ 1023 ∧ -1022 ≤ p.minExp) ∧ p.adjust ≤ p.maxExp + 513 ∧ p.minExp + p.adjust ≤ 514 ∧ p.minExp ≤ p.maxExp := by
  cases p <;> decide

/-- The number in range: its rounding is a number of the precision. -/
theorem RoundedBy.hasValue_normal (h : RoundedBy s i x r) (hz : x.p.smallest ≤ |x.z|) (hr : r.exp ≤ x.p.maxExp) :
    hasValue (patternOf x.p x.sign r 0) x.sign (r.magnitude x.p * 2 ^ (0 : ℤ)) := by
  obtain ⟨⟨hmax, hmin⟩, -⟩ := precision_range x.p
  have hlow := (h.normal hz hr).1
  exact hasValue_patternOf _ h.sig_range (by omega) (by omega)

/-- Overflow: with its exponent lowered it is a double. -/
theorem RoundedBy.hasValue_lowered (h : RoundedBy s i x r) (hr : x.p.maxExp < r.exp) :
    hasValue (patternOf x.p x.sign r (-x.p.adjust)) x.sign (r.magnitude x.p * 2 ^ (-x.p.adjust)) := by
  obtain ⟨-, hadjust, -⟩ := precision_range x.p
  have := h.upper
  exact hasValue_patternOf _ h.sig_range (by omega) (by omega)

/-- A tiny number: with its exponent raised it is a double. -/
theorem RoundedBy.hasValue_raised (h : RoundedBy s i x r) (hz : |x.z| < x.p.smallest) :
    hasValue (patternOf x.p x.sign r x.p.adjust) x.sign (r.magnitude x.p * 2 ^ x.p.adjust) := by
  obtain ⟨-, -, hadjust, -⟩ := precision_range x.p
  have := h.lower
  have := (h.tiny hz).1
  exact hasValue_patternOf _ h.sig_range (by omega) (by omega)

/-- Precise mode with the inexact exception enabled, and every mode without it. -/
theorem RoundedBy.in_range (h : RoundedBy s i x r) (hz : x.p.smallest ≤ |x.z|) (hr : r.exp ≤ x.p.maxExp) :
    (s.plainFloat (inexactBit r.fi) → ∃ t, exec i s = .next t ∧ hasValue (t.f x.frD) x.sign (r.magnitude x.p) ∧
        fpscrBecomes s t (inexactBit r.fi) (some r.fr) (some r.fi) (some (fprfOf (t.f x.frD))) ∧
        onlyFpResult x.frD x.rc s t) ∧
      (s.assists (inexactBit r.fi) → raises .fpAssist 0 i s) := by
  have hvalue := h.hasValue_normal hz hr
  obtain ⟨-, hexec⟩ := h.normal hz hr
  constructor
  · intro hplain
    have hgo : (r.fi && fpXE s.fpscr && s.fpTraps) = false := by
      by_cases hen : someEnabled s.fpscr (inexactBit r.fi)
      · rw [fpTraps_of_plainFloat hplain hen, Bool.and_false]
      · rw [someEnabled_inexact, ← Bool.and_eq_true, Bool.not_eq_true] at hen
        rw [hen, Bool.false_and]
    obtain ⟨hfp, hsie, -⟩ := hplain
    have hx := hexec hfp
    rw [hgo] at hx
    have hdelivers := delivers_rounded hx hsie (signalsBits_inexact r.fi) hvalue
    rwa [zpow_zero, mul_one] at hdelivers
  · rintro ⟨hprecise, hen⟩
    have htraps := fpTraps_of_preciseFloat hprecise
    obtain ⟨hfi, hxe⟩ := (someEnabled_inexact _ _).mp hen
    obtain ⟨hfp, -, -, hdbg⟩ := hprecise
    have hx := hexec hfp
    rw [hfi, hxe, htraps] at hx
    exact raises_of_assist hx hdbg

/-! Overflow (R349). -/

theorem largest_eq (p : Precision) (neg : Bool) : negateIf neg p.maxPattern = largest p neg := by
  cases p <;> cases neg <;> rfl

/-- Without its exception an overflow delivers the infinity or the largest number. -/
theorem overflowOutcome_disabled (x : RoundForm) {f : Word} (traps : Bool) (r : Rounded) (h : fpOE f = false) :
    overflowOutcome f traps x.p (decide (x.z < 0)) x.neg r =
      trapIf (fpXE f && traps)
        { value := some (overflowValue x (fpRN f)), fprf := some (fprfOf (overflowValue x (fpRN f))),
          set := fpOX ||| fpXX, fr := none, fi := some true, tiny := false } := by
  have hvalue : overflowValue x (fpRN f) = if overflowsToInfinity (fpRN f) (decide (x.z < 0)) then infOf x.sign
      else negateIf x.sign x.p.maxPattern := by rw [infOf_eq, largest_eq]; rfl
  rw [overflowOutcome, if_neg (by simp [h]), hvalue]
  rfl

theorem overflowOutcome_enabled (x : RoundForm) {f : Word} (traps : Bool) (r : Rounded) (h : fpOE f = true) :
    overflowOutcome f traps x.p (decide (x.z < 0)) x.neg r =
      trapIf traps (roundedResult x.p x.sign r (-x.p.adjust) (fpOX ||| maskIf r.fi fpXX) false) := by
  rw [overflowOutcome, if_pos h]
  rfl

theorem RoundedBy.overflows (h : RoundedBy s i x r) (hr : x.p.maxExp < r.exp) :
    (s.plainFloat [3, 6] → bit s.fpscr 25 = false → ∃ t, exec i s = .next t ∧ t.f x.frD = overflowValue x (fpRN s.fpscr) ∧
        fpscrBecomes s t [3, 6] none (some true) (some (fprfOf (t.f x.frD))) ∧ onlyFreeFpResult x.frD x.rc s t) ∧
      (s.plainFloat (3 :: inexactBit r.fi) → bit s.fpscr 25 = true → ∃ t, exec i s = .next t ∧
        hasValue (t.f x.frD) x.sign (r.magnitude x.p * 2 ^ (-x.p.adjust)) ∧
        fpscrBecomes s t (3 :: inexactBit r.fi) (some r.fr) (some r.fi) (some (fprfOf (t.f x.frD))) ∧
        onlyFpResult x.frD x.rc s t) ∧
      (s.preciseFloat → bit s.fpscr 25 = true ∨ bit s.fpscr 28 = true → raises .fpAssist 0 i s) := by
  have hexec := h.overflow hr
  refine ⟨fun hplain hoe => ?_, fun hplain hoe => ?_, fun hprecise hen => ?_⟩
  · have hgo : (fpXE s.fpscr && s.fpTraps) = false := by
      cases hxe : fpXE s.fpscr
      · rfl
      · exact fpTraps_of_plainFloat hplain (someEnabled_of_mem (k := 6) (by simp) rfl hxe)
    obtain ⟨hfp, hsie, -⟩ := hplain
    have hx := hexec hfp
    rw [overflowOutcome_disabled x _ r hoe, hgo] at hx
    exact delivers_free hx hsie rfl rfl (signalsBits_OX.or signalsBits_XX)
  · have hgo := fpTraps_of_plainFloat hplain (someEnabled_of_mem (k := 3) (by simp) rfl hoe)
    obtain ⟨hfp, hsie, -⟩ := hplain
    have hx := hexec hfp
    rw [overflowOutcome_enabled x _ r hoe, hgo] at hx
    exact delivers_rounded hx hsie (signalsBits_OX.or (signalsBits_inexact r.fi)) (h.hasValue_lowered hr)
  · have htraps := fpTraps_of_preciseFloat hprecise
    obtain ⟨hfp, -, -, hdbg⟩ := hprecise
    have hx := hexec hfp
    rw [htraps] at hx
    cases hoe : fpOE s.fpscr
    · have hxe : fpXE s.fpscr = true := hen.resolve_left (by simpa [fpOE] using hoe)
      rw [overflowOutcome_disabled x _ r hoe, hxe] at hx
      exact raises_of_assist hx hdbg
    · rw [overflowOutcome_enabled x _ r hoe] at hx
      exact raises_of_assist hx hdbg

/-! Tiny results (R350, R352, R354). -/

theorem tinyOutcome_enabled (x : RoundForm) {f : Word} (traps sie : Bool) (r : Rounded) (h : fpUE f = true) :
    tinyOutcome f traps sie x.p (decide (x.z < 0)) x.neg r =
      trapIf traps (roundedResult x.p x.sign r x.p.adjust (fpUX ||| maskIf r.fi fpXX) true) := by
  rw [tinyOutcome, if_pos h]
  rfl

theorem tinyOutcome_nonIeee (x : RoundForm) {f : Word} (traps sie : Bool) (r : Rounded) (h : fpUE f = false)
    (hni : fpNI f = true) :
    tinyOutcome f traps sie x.p (decide (x.z < 0)) x.neg r =
      .result { value := some (BitVec.ofBool x.sign ++ 0#63 : BitVec 64),
                fprf := some (fprfOf (BitVec.ofBool x.sign ++ 0#63 : BitVec 64)),
                set := fpUX, fr := none, fi := none, tiny := true } := by
  rw [tinyOutcome, if_neg (by simp [h]), if_pos hni, ← zeroOf_eq]
  rfl

theorem tinyOutcome_assist (x : RoundForm) {f : Word} (traps : Bool) (r : Rounded) (h : fpUE f = false)
    (hni : fpNI f = false) : tinyOutcome f traps false x.p (decide (x.z < 0)) x.neg r = .assist := by
  rw [tinyOutcome, if_neg (by simp [h]), if_neg (by simp [hni])]
  rfl

theorem tinyOutcome_sie (x : RoundForm) {f : Word} (traps : Bool) (r : Rounded) (h : fpUE f = false)
    (hni : fpNI f = false) :
    tinyOutcome f traps true x.p (decide (x.z < 0)) x.neg r = .result (roundedResult x.p x.sign r x.p.adjust 0 true) := by
  rw [tinyOutcome, if_neg (by simp [h]), if_neg (by simp [hni])]
  rfl

/-- A tiny result with the underflow exception enabled. -/
theorem RoundedBy.underflows (h : RoundedBy s i x r) (hz : |x.z| < x.p.smallest) (hue : bit s.fpscr 26 = true) :
    (s.plainFloat (4 :: inexactBit r.fi) → ∃ t, exec i s = .next t ∧
        hasValue (t.f x.frD) x.sign (r.magnitude x.p * 2 ^ x.p.adjust) ∧
        fpscrBecomes s t (4 :: inexactBit r.fi) (some r.fr) (some r.fi) (some (fprfOf (t.f x.frD))) ∧
        onlyFpResult x.frD x.rc s t) ∧
      (s.preciseFloat → raises .fpAssist 0 i s) := by
  obtain ⟨-, hexec⟩ := h.tiny hz
  rw [tinyOutcome_enabled x _ _ r hue] at hexec
  refine ⟨fun hplain => ?_, fun hprecise => ?_⟩
  · have hgo := fpTraps_of_plainFloat hplain (someEnabled_of_mem (k := 4) (by simp) rfl hue)
    obtain ⟨hfp, hsie, -⟩ := hplain
    have hx := hexec hfp
    rw [hgo] at hx
    exact delivers_rounded hx hsie (signalsBits_UX.or (signalsBits_inexact r.fi)) (h.hasValue_raised hz)
  · have htraps := fpTraps_of_preciseFloat hprecise
    obtain ⟨hfp, -, -, hdbg⟩ := hprecise
    have hx := hexec hfp
    rw [htraps] at hx
    exact raises_of_assist hx hdbg

/-- In SIE mode a tiny result is raised, and FPECR[TR] tells of it. -/
theorem RoundedBy.tiny_sie (h : RoundedBy s i x r) (hz : |x.z| < x.p.smallest) (hue : bit s.fpscr 26 = false)
    (hni : bit s.fpscr 29 = false) (hfp : msrFP s.msr = true) (hsie : s.sie = true) (hfe : msrFE s.msr = false) :
    ∃ t, exec i s = .next t ∧ hasValue (t.f x.frD) x.sign (r.magnitude x.p * 2 ^ x.p.adjust) ∧
      fpscrBecomes s t [] (some r.fr) (some r.fi) (some (fprfOf (t.f x.frD))) ∧
      recordedFp x.rc s t ∧ sameFprsBut s t [x.frD] ∧ sameMemory s t ∧ causesAre false false false true s t ∧
      t = { s with fpr := t.fpr, fpscr := t.fpscr, fpecr := t.fpecr, cr := t.cr, pc := s.pc + 4 } := by
  have hx := (h.tiny hz).2 hfp
  rw [hsie, tinyOutcome_sie x _ r hue hni, finishOutcome_ignored _ hfe] at hx
  generalize hres : roundedResult x.p x.sign r x.p.adjust 0 true = res at hx
  have hf : (delivered s x.frD x.rc res).f x.frD = patternOf x.p x.sign r x.p.adjust := by
    rw [← hres]
    exact delivered_f x.frD x.rc rfl
  have hcount := delivered_freeCount s x.frD x.rc (r := res) (by rw [← hres]; rfl)
  have heq := delivered_eq s x.frD x.rc res
  rw [hcount] at heq
  refine ⟨_, hx, by rw [hf]; exact h.hasValue_raised hz, ?_, recordedFp_delivered s x.frD x.rc res,
    sameFprsBut_delivered s x.frD x.rc res, sameMemory_delivered s x.frD x.rc res, ?_, heq⟩
  · rw [hf, ← hres]
    exact fpscrBecomes_delivered s x.frD x.rc (r := roundedResult x.p x.sign r x.p.adjust 0 true) signalsBits_zero
  · rw [← hres]
    exact causesAre_delivered s x.frD x.rc (roundedResult x.p x.sign r x.p.adjust 0 true)

end

/-- A number at or above the smallest normalized one is not 0. -/
theorem ne_zero_of_smallest_le {p : Precision} {z : ℚ} (h : p.smallest ≤ |z|) : z ≠ 0 := by
  rintro rfl
  rw [abs_zero] at h
  exact absurd h (not_le.mpr (two_zpow_pos _))

/-- Settles O33: the exact number of the instruction is rounded, and in range the rounding is delivered. -/
theorem fpArithmeticRounds : Obligations.FpArithmeticRounds := by
  intro i s x hx hz
  obtain ⟨r, h⟩ := exists_roundedBy hx (ne_zero_of_smallest_le hz)
  exact ⟨r, h.rounds, h.in_range hz⟩

/-- Settles O35: beyond the range each enable has its own result. -/
theorem fpRangeResult : Obligations.FpRangeResult := by
  constructor
  · intro i s x hx hz
    obtain ⟨r, h⟩ := exists_roundedBy hx hz
    exact ⟨r, h.rounds, h.overflows⟩
  · intro i s x hx hz hsmall
    obtain ⟨r, h⟩ := exists_roundedBy hx hz
    obtain ⟨-, hexec⟩ := h.tiny hsmall
    refine ⟨r, h.rounds, fun hplain hue => (h.underflows hsmall hue).1 hplain,
      fun hprecise hue => (h.underflows hsmall hue).2 hprecise, fun hplain hue hni => ?_, fun hue hni hfp hsie hdbg => ?_,
      h.tiny_sie hsmall⟩
    · obtain ⟨hfp, hsie, -⟩ := hplain
      have hdeliver := hexec hfp
      rw [tinyOutcome_nonIeee x _ _ r hue hni] at hdeliver
      exact delivers_free hdeliver hsie rfl rfl signalsBits_UX
    · have hassist := hexec hfp
      rw [hsie, tinyOutcome_assist x _ r hue hni] at hassist
      exact raises_of_assist hassist hdbg

end Sys2Proof.Proofs

/-! `frsp`: numbers rounded to single precision, and the operands that it delivers as they are or quiet
(44_fp_convert_compare_fpscr.md R391). -/

namespace Sys2Proof.Proofs

open Sys2Proof Sys2Proof.Machine Sys2Proof.Laws

/-! Classes and patterns of operands. -/

/-- A pattern is fixed by its sign, exponent and fraction. -/
theorem eq_of_fields {a b : Dword} (hs : fpSign a = fpSign b) (he : fpExp a = fpExp b) (hf : fpFrac a = fpFrac b) : a = b := by
  simp only [fpSign, BitVec.msb_eq_decide, decide_eq_decide] at hs
  simp only [fpExp, fpFrac, BitVec.extractLsb'_toNat, Nat.shiftRight_eq_div_pow] at he hf
  have := a.isLt
  have := b.isLt
  apply BitVec.eq_of_toNat_eq
  omega

theorem zeroOf_fpSign {d : Dword} (h : isZero d = true) : zeroOf (fpSign d) = d := by
  obtain ⟨he, hf⟩ : fpExp d = 0 ∧ fpFrac d = 0 := by simpa [isZero] using h
  apply eq_of_fields
  · cases fpSign d <;> rfl
  · rw [he]; cases fpSign d <;> rfl
  · rw [hf]; cases fpSign d <;> rfl

theorem infOf_fpSign {d : Dword} (h : isInf d = true) : infOf (fpSign d) = d := by
  obtain ⟨he, hf⟩ : fpExp d = 2047 ∧ fpFrac d = 0 := by simpa [isInf] using h
  apply eq_of_fields
  · cases fpSign d <;> rfl
  · rw [he]; cases fpSign d <;> rfl
  · rw [hf]; cases fpSign d <;> rfl

theorem isDenormal_of_isZero {d : Dword} (h : isZero d = true) : isDenormal d = false := by
  obtain ⟨-, hf⟩ : fpExp d = 0 ∧ fpFrac d = 0 := by simpa [isZero] using h
  simp [isDenormal, hf]

theorem isDenormal_of_isInf {d : Dword} (h : isInf d = true) : isDenormal d = false := by
  obtain ⟨he, -⟩ : fpExp d = 2047 ∧ fpFrac d = 0 := by simpa [isInf] using h
  simp [isDenormal, he]

theorem isDenormal_of_isNaN {d : Dword} (h : isNaN d = true) : isDenormal d = false := by
  obtain ⟨he, -⟩ : fpExp d = 2047 ∧ fpFrac d ≠ 0 := by simpa [isNaN] using h
  simp [isDenormal, he]

theorem isNaN_of_isInf {d : Dword} (h : isInf d = true) : isNaN d = false := by
  cases hn : isNaN d
  · rfl
  · rw [isInf_of_isNaN hn] at h
    cases h

/-- A pattern that has a finite number is no NaN. -/
theorem isNaN_of_numOf_fin {d : Dword} {sign : Bool} {m : Nat} {e : Int} (h : numOf d = .fin sign m e) : isNaN d = false := by
  have he : fpExp d ≠ 2047 := by
    intro he
    rw [numOf, if_pos he] at h
    cases h
  simp [isNaN, he]

/-- Bit 12 of a NaN that is not a signalling one is set already. -/
theorem quiet_of_not_isSNaN {d : Dword} (hn : isNaN d = true) (h : isSNaN d = false) : quiet d = d := by
  have hbit : d.getLsbD 51 = true := by simpa [isSNaN, hn, dbit] using h
  have hmask : ∀ i < 64, (0x0008000000000000#64).getLsbD i = decide (i = 51) := by decide
  apply BitVec.eq_of_getLsbD_eq
  intro i hi
  rw [quiet, BitVec.getLsbD_or, hmask i hi]
  by_cases h51 : i = 51
  · subst h51; simp [hbit]
  · simp [h51]

/-! The instruction. -/

section

variable {frB : Reg} {s : State} (frD : Reg) (rc : Bool)

theorem exec_frsp (hden : isDenormal (s.f frB) = false) (hfp : msrFP s.msr = true) :
    exec (.frsp frD frB rc) s =
      finishOutcome (roundSingleOutcome s.fpscr s.fpTraps s.sie (s.f frB)) frD rc s := by
  change execFrsp frD frB rc s = _
  rw [execFrsp, fpAvailable_on _ hfp, if_neg (by simp [hden])]

theorem exec_frsp_number (hden : isDenormal (s.f frB) = false) (hn : isNaN (s.f frB) = false) (hfp : msrFP s.msr = true) :
    exec (.frsp frD frB rc) s =
      finishOutcome (deliver s.fpscr s.fpTraps s.sie .single false (numOf (s.f frB))) frD rc s := by
  rw [exec_frsp frD rc hden hfp, roundSingleOutcome, if_neg (by simp [isSNaN_of_not_isNaN hn]), if_neg (by simp [hn])]

/-- A zero or an infinity is its own result. -/
theorem exec_frsp_exact (h : isZero (s.f frB) = true ∨ isInf (s.f frB) = true) (hfp : msrFP s.msr = true) :
    exec (.frsp frD frB rc) s = finishOutcome (.result (exactResult (s.f frB))) frD rc s := by
  obtain h | h := h
  · have hf := isFinite_of_isZero h
    rw [exec_frsp_number frD rc (isDenormal_of_isZero h) (isNaN_of_isFinite hf) hfp, numOf_of_isFinite hf,
      (mantissaOf_eq_zero_iff _).mpr h, deliver_zero, Bool.bne_false, zeroOf_fpSign h]
  · rw [exec_frsp_number frD rc (isDenormal_of_isInf h) (isNaN_of_isInf h) hfp, numOf_of_isInf h, deliver_inf,
      Bool.bne_false, infOf_fpSign h]

theorem exec_frsp_quietNaN (hn : isNaN (s.f frB) = true) (h : isSNaN (s.f frB) = false) (hfp : msrFP s.msr = true) :
    exec (.frsp frD frB rc) s = finishOutcome (.result (exactResult (clearLow29 (quiet (s.f frB))))) frD rc s := by
  rw [exec_frsp frD rc (isDenormal_of_isNaN hn) hfp, roundSingleOutcome, if_neg (by simp [h]), if_pos hn,
    quiet_of_not_isSNaN hn h]

theorem exec_frsp_signallingNaN (hn : isNaN (s.f frB) = true) (h : isSNaN (s.f frB) = true) (hfp : msrFP s.msr = true) :
    exec (.frsp frD frB rc) s =
      finishOutcome (trapIf (fpVE s.fpscr && s.fpTraps) (signalled fpVXSNAN (fpVE s.fpscr) (clearLow29 (quiet (s.f frB)))))
        frD rc s := by
  rw [exec_frsp frD rc (isDenormal_of_isNaN hn) hfp, roundSingleOutcome, if_pos h]

end

/-! The rounding of a number in the single range (R344). -/

theorem roundTo_sig_range (p : Precision) (rn : BitVec 2) (neg : Bool) {m : Nat} (e : Int) (hm : m ≠ 0) :
    2 ^ (p.width - 1) ≤ (roundTo p rn neg m e).sig ∧ (roundTo p rn neg m e).sig < 2 ^ p.width := by
  obtain ⟨hzero, hstands⟩ := standsFor_of_value (value_fin neg m e)
  obtain ⟨hneg, hnear⟩ := hstands fun h => hm (hzero.mpr h)
  obtain ⟨k, -, -, hlo, hhi, -⟩ := roundTo_rounds (p := p) rn hm hnear
  rw [← hneg] at hlo hhi
  exact ⟨hlo, hhi⟩

/-- Where the instruction delivers its results itself, an inexact one does not trap. -/
theorem inexact_traps_of_plainFloat {s : State} {fi : Bool} (h : s.plainFloat (inexactBit fi)) :
    (fi && fpXE s.fpscr && s.fpTraps) = false := by
  by_cases hen : someEnabled s.fpscr (inexactBit fi)
  · rw [fpTraps_of_plainFloat h hen, Bool.and_false]
  · rw [someEnabled_inexact, ← Bool.and_eq_true, Bool.not_eq_true] at hen
    rw [hen, Bool.false_and]

/-- Neither tiny nor too great, and without an enabled inexact exception, the number is delivered rounded. -/
theorem deliver_in_range {s : State} {p : Precision} (neg : Bool) {sign : Bool} {m : Nat} {e : Int} {r : Rounded}
    (hr : r = roundTo p (fpRN s.fpscr) sign m e) (hm : m ≠ 0) (hlo : p.minExp ≤ exponentOf m e) (hhi : r.exp ≤ p.maxExp)
    (h : s.plainFloat (inexactBit r.fi)) :
    deliver s.fpscr s.fpTraps s.sie p neg (.fin sign m e) =
      .result (roundedResult p (sign != neg) r 0 (maskIf r.fi fpXX) false) := by
  rw [deliver_of_ne_zero _ _ _ _ _ _ _ hm, ← hr, if_neg (not_lt.mpr hlo), if_neg (not_lt.mpr hhi),
    inexact_traps_of_plainFloat h]
  rfl

/-- The pattern of such a number has its value. -/
theorem hasValue_roundTo {p : Precision} {rn : BitVec 2} {sign : Bool} {m : Nat} {e : Int} {r : Rounded}
    (hr : r = roundTo p rn sign m e) (hm : m ≠ 0) (hlo : p.minExp ≤ exponentOf m e) (hhi : r.exp ≤ p.maxExp) :
    hasValue (patternOf p sign r 0) sign (r.magnitude p * 2 ^ (0 : ℤ)) := by
  obtain ⟨⟨hmax, hmin⟩, -⟩ := precision_range p
  obtain ⟨hexp, -⟩ := roundTo_exp p rn sign m e
  have hsig := roundTo_sig_range p rn sign e hm
  rw [← hr] at hexp hsig
  exact hasValue_patternOf _ hsig (by omega) (by omega)

/-! The FPSCR. -/

/-- The bits that a rounded result leaves alone are exception bits other than XX, and the control bits. -/
theorem bit_fpscrRest (k : Nat) (hk : k < 32) :
    bit fpscrRest k = decide (3 ≤ k ∧ k ≠ 6 ∧ ¬(13 ≤ k ∧ k ≤ 20)) := by
  interval_cases k <;> rfl

/-- Signalling XX where the result is inexact, as a rounded result does. -/
theorem fpscrRounded_of_fpscrBecomes {s t : State} {fr fi : Bool} {v : Dword}
    (h : fpscrBecomes s t (inexactBit fi) (some fr) (some fi) (some (fprfOf v))) : fpscrRounded s t fr fi v := by
  obtain ⟨hother, hfx, hsum, hfr, hfi, hfprf⟩ := h
  refine ⟨hfr _ rfl, hfi _ rfl, hfprf _ rfl, ?_, ?_, eq_of_bit fun k hk => ?_, hsum⟩
  · rw [hother 6 (by decide) (by decide) (by decide)]
    cases fi <;> rfl
  · rw [hfx]
    cases fi <;> simp [inexactBit]
  · rw [bit_and, bit_and, bit_fpscrRest k hk]
    by_cases hrest : 3 ≤ k ∧ k ≠ 6 ∧ ¬(13 ≤ k ∧ k ≤ 20)
    · obtain ⟨h3, h6, h13⟩ := hrest
      rw [hother k h3 hk h13]
      cases fi <;> simp [inexactBit, h6]
    · rw [decide_eq_false hrest, Bool.and_false, Bool.and_false]

/-- Settles O39: numbers in range end as rounded results, zeros, infinities and quiet NaNs as exact ones, and signalling NaNs as
all signalled ones. -/
theorem roundToSingleResult : Obligations.RoundToSingleResult := by
  refine ⟨?number, ?same, ?nan⟩
  case number =>
    intro frD frB rc s sign m e hden hnum hm hlo hhi r hplain
    have hdeliver := deliver_in_range (p := .single) (r := r) false rfl hm hlo hhi hplain
    have hvalue := hasValue_roundTo (p := .single) (r := r) rfl hm hlo hhi
    obtain ⟨hfp, hsie, -⟩ := hplain
    have hx := exec_frsp_number frD rc hden (isNaN_of_numOf_fin hnum) hfp
    rw [hnum, hdeliver, Bool.bne_false] at hx
    obtain ⟨t, ht, ⟨hfinite, -, hval⟩, hbecomes, hcr, hfpr, hmem, heq⟩ :=
      delivers_rounded hx hsie (signalsBits_inexact r.fi) hvalue
    refine ⟨t, ht, hfinite, hval.trans ?_, fpscrRounded_of_fpscrBecomes hbecomes, hcr, hfpr, hmem, heq⟩
    have hexp : r.exp - (Precision.single.width : ℤ) + 1 = r.exp - 23 := by
      change r.exp - 24 + 1 = r.exp - 23
      omega
    rw [zpow_zero, mul_one, Rounded.magnitude, hexp]
  case same =>
    intro frD frB rc s hclass ⟨hfp, hsie, _⟩
    exact deliversExactly_signalled (exec_frsp_exact frD rc hclass hfp) hsie signalsBits_zero
  case nan =>
    intro frD frB rc s hn v
    have every (hsnan : isSNaN (s.f frB) = true) :=
      signalled_in_every_mode (exec_frsp_signallingNaN frD rc hn hsnan)
        (signalsBits_one rfl (by decide) (by decide) : SignalsBits fpVXSNAN [7])
        (someEnabled_invalid s.fpscr (by simp) (by simp))
    refine ⟨fun ⟨hfp, hsie, _⟩ hquiet => ?_, fun hplain hsnan => (every hsnan).1 hplain,
      fun hplain hsnan => (every hsnan).2.1 hplain, fun hassist hsnan => (every hsnan).2.2 hassist⟩
    exact deliversExactly_signalled (exec_frsp_quietNaN frD rc hn hquiet hfp) hsie signalsBits_zero

end Sys2Proof.Proofs

/-! Floating-point moves: the state after a move, and the words that mean one (47_load_store_fp_move.md R524 to R528). -/

namespace Sys2Proof.Proofs

open Sys2Proof Sys2Proof.Machine Sys2Proof.Laws

/-! The state after a move (R524). -/

/-- The state in which a move of the pattern `v` ends. -/
def moved (s : State) (frD : Reg) (rc : Bool) (v : Dword) : State :=
  (((s.setF frD v).setCauses false (isDenormal v) false false).recordFp rc).advance

theorem fpMove_available {s : State} (v : Dword) (frD : Reg) (rc : Bool) (h : msrFP s.msr = true) :
    fpMove v frD rc s = .next (moved s frD rc v) := fpAvailable_on _ h

theorem fpMove_unavailable {s : State} (v : Dword) (frD : Reg) (rc : Bool) (h : msrFP s.msr = false) :
    fpMove v frD rc s = raise .fpUnavailable s := fpAvailable_off _ h

section
variable (s : State) (frD : Reg) (rc : Bool) (v : Dword)

theorem moved_fpr : (moved s frD rc v).fpr = (s.setF frD v).fpr := by
  rw [moved, advance_fpr, recordFp_fpr, setCauses_fpr]

theorem moved_f (n : Reg) : (moved s frD rc v).f n = if n = frD then v else s.f n := by
  rw [f_congr (moved_fpr s frD rc v), f_setF]

theorem sameFprsBut_moved : sameFprsBut s (moved s frD rc v) [frD] := by
  intro n hn
  have hne : n ≠ frD := by simpa using hn
  rw [moved_f, if_neg hne]

theorem recordedFp_moved : recordedFp rc s (moved s frD rc v) :=
  recordedFp_recordFp rc s _ (setCauses_cr ..)

theorem moved_fpecr (h : s.sie = false) : (moved s frD rc v).fpecr = s.fpecr := by
  have hcauses := causesAre_setCauses (s := s) (t := s.setF frD v) false (isDenormal v) false false rfl
  rw [causesAre, h, if_neg Bool.false_ne_true] at hcauses
  rw [moved, advance_fpecr, recordFp_fpecr, hcauses]

/-- A record changes CR alone. -/
theorem recordFp_eq : s.recordFp rc = { s with cr := (s.recordFp rc).cr } := by
  cases rc <;> rfl

/-- A move changes frD, FPECR, CR and CIA alone; the FPSCR among others stays. -/
theorem moved_eq :
    moved s frD rc v =
      { s with
        fpr := (moved s frD rc v).fpr
        fpecr := (moved s frD rc v).fpecr
        cr := (moved s frD rc v).cr
        pc := s.pc + 4 } := by
  unfold moved
  rw [recordFp_eq, setCauses_eq]
  rfl

theorem sameMemory_moved : sameMemory s (moved s frD rc v) := by
  refine sameMemory_of_mem ?_
  rw [moved_eq]

end

/-! The words (R212). -/

/-- Primary opcode 63 with I[26] = 0, bit 5 of the extended opcode, is X-form. -/
theorem decode_opcode63_xForm {w : Word} {xo : BitVec 10} (hp : bits w 0 6 = 63#6) (hxo : bits w 21 10 = xo)
    (h : xo.getLsbD 4 = false) : decode w = decode63x w := by
  have hprimary : (fld w 26 6).toNat = 63 := congrArg BitVec.toNat hp
  have hbit : w.getLsbD 5 = false := by
    have hbits := bits_getLsbD w 21 10 4 (by decide) (by decide)
    exact hbits.symm.trans (hxo ▸ h)
  rw [decode, hprimary]
  exact if_neg (ne_true_of_eq_false hbit)

/-- Settles O29: each move ends in the state `moved` with the pattern of its form, and its extended opcode alone selects it. -/
theorem fpMoveResult : Obligations.FpMoveResult := by
  refine ⟨?moves, ?words⟩
  case moves =>
    intro i s x hx
    have hexec := exec_fpMoveForm hx
    refine ⟨fun hfp => ⟨_, hexec.trans (fpMove_available _ x.frD x.rc hfp), ?_, ?_, ?_, ?_, ?_, ?_⟩, fun hfp hdbg => ?_⟩
    · rw [moved_f, if_pos rfl]
    · exact recordedFp_moved s x.frD x.rc _
    · exact sameFprsBut_moved s x.frD x.rc _
    · exact sameMemory_moved s x.frD x.rc _
    · exact moved_fpecr s x.frD x.rc _
    · exact moved_eq s x.frD x.rc _
    · exact raises_of_exec (hexec.trans (fpMove_unavailable _ x.frD x.rc hfp)) rfl hdbg
  case words =>
    intro w hp
    have extended {xo : BitVec 10} (hxo : bits w 21 10 = xo) : (fld w 1 10).toNat = xo.toNat := congrArg BitVec.toNat hxo
    refine ⟨fun hxo => ?_, fun hxo => ?_, fun hxo => ?_, fun hxo => ?_⟩ <;>
      rw [decode_opcode63_xForm hp hxo rfl, decode63x, extended hxo] <;> rfl

end Sys2Proof.Proofs

/-! Branches and the condition register: the state after them, and the words that mean them (48_branch_cr_system_trap.md R542, R547
to R556). -/

namespace Sys2Proof.Proofs

open Sys2Proof Sys2Proof.Machine Sys2Proof.Laws

/-! The opcodes of a word, in the numbering of the manual and in that of the decoder (R191, R209). -/

theorem primary_toNat {w : Word} {p : BitVec 6} (h : bits w 0 6 = p) : (fld w 26 6).toNat = p.toNat :=
  congrArg BitVec.toNat h

theorem extended_toNat {w : Word} {xo : BitVec 10} (h : bits w 21 10 = xo) : (fld w 1 10).toNat = xo.toNat :=
  congrArg BitVec.toNat h

theorem decode_opcode18 {w : Word} (hp : bits w 0 6 = 18#6) :
    decode w = .ok (.b (bits w 6 24) (bit w 30) (bit w 31)) := by
  rw [decode, primary_toNat hp]
  rfl

theorem decode_opcode19 {w : Word} (hp : bits w 0 6 = 19#6) : decode w = decode19 w := by
  rw [decode, primary_toNat hp]
  rfl

/-! The unconditional branch (R540, R542). -/

theorem branchTo_taken (target : Word) (lk : Bool) (s : State) :
    branchTo true target lk s = .next { s with pc := target, lr := if lk then s.pc + 4 else s.lr } := by
  cases lk <;> rfl

theorem exec_b {s : State} (li : BitVec 24) (aa lk : Bool) (h : s.inDebug = false) :
    exec (.b li aa lk) s =
      branchTo true ((if aa then 0 else s.pc) + (li ++ 0#2 : BitVec 26).signExtend 32) lk s := by
  have hrun : exec (.b li aa lk) s = execB li aa lk s := rfl
  rw [hrun, execB, h]
  cases aa
  case false => rfl
  case true => simp

/-- Settles O43: outside debug mode `b` is a taken branch to its target, and primary opcode 18 alone selects it. -/
theorem branchAlwaysResult : Obligations.BranchAlwaysResult := by
  refine ⟨fun li aa lk s hdbg => ?_, fun w hp => decode_opcode18 hp⟩
  rw [exec_b li aa lk hdbg, branchTo_taken]

/-! Instructions that write CR alone (R547, R556). -/

/-- The state in which an instruction ends that writes `cr` to the condition register and nothing else. -/
def crWritten (s : State) (cr : Word) : State := { s with cr := cr, pc := s.pc + 4 }

@[simp] theorem crWritten_cr (s : State) (cr : Word) : (crWritten s cr).cr = cr := rfl

theorem sameMemory_crWritten (s : State) (cr : Word) : sameMemory s (crWritten s cr) := sameMemory_of_mem rfl

/-- A CR logical instruction writes the value of its form to the bit crbD. -/
theorem exec_crForm {i : Instr} {s : State} {x : CrForm} (h : crForm s i = some x) :
    exec i s = .next (crWritten s (setBit s.cr x.crbD.toNat x.value)) := by
  unfold crForm at h
  split at h <;> cases h <;> rfl

theorem exec_mcrf (crfD crfS : BitVec 3) (s : State) :
    exec (.mcrf crfD crfS) s = .next (crWritten s (setCrField s.cr crfD (crField s.cr crfS))) := rfl

/-- Settles O45: both kinds of instruction end in `crWritten`, with one bit or one field of CR replaced, and the extended opcode of
primary opcode 19 alone selects them. -/
theorem conditionRegisterResult : Obligations.ConditionRegisterResult := by
  refine ⟨?logical, ?mcrf, ?words⟩
  case logical =>
    intro i s x hx
    have hD : x.crbD.toNat < 32 := x.crbD.isLt
    refine ⟨_, exec_crForm hx, ?_, fun k hk hne => ?_, sameMemory_crWritten s _, rfl⟩
    · rw [crWritten_cr, bit_setBit _ _ _ _ hD hD, if_pos rfl]
    · rw [crWritten_cr, bit_setBit _ _ _ _ hD hk, if_neg hne]
  case mcrf =>
    intro crfD crfS s
    refine ⟨_, exec_mcrf crfD crfS s, ?_, fun g hg => ?_, sameMemory_crWritten s _, rfl⟩
    · rw [crWritten_cr, crField_setCrField_same]
    · rw [crWritten_cr, crField_setCrField_ne _ _ _ _ hg]
  case words =>
    intro w hp
    refine ⟨fun hxo => ?_, fun hxo => ?_, fun hxo => ?_, fun hxo => ?_, fun hxo => ?_, fun hxo => ?_, fun hxo => ?_,
      fun hxo => ?_, fun hxo => ?_⟩ <;>
      rw [decode_opcode19 hp, decode19, extended_toNat hxo] <;> rfl

end Sys2Proof.Proofs

/-! The floating-point enabled program exception after an instruction (60_exceptions.md R684), and the moves of CR, XER, MSR and the
time base (49_processor_control_sync_cache.md R580 to R584, R592). -/

namespace Sys2Proof.Proofs

open Sys2Proof Sys2Proof.Machine Sys2Proof.Laws

/-- The test of R684 leaves the state as it is, or outside debug mode enters the program exception. -/
theorem fpEnabledTest_result (t : State) (srr0 : Word) (info : BitVec 16) :
    (¬(msrFE t.msr = true ∧ bit t.fpscr 1 = true) → t.fpEnabledTest srr0 info = t) ∧
      (msrFE t.msr = true → bit t.fpscr 1 = true → t.inDebug = false →
        enters .program srr0 info t (t.fpEnabledTest srr0 info)) := by
  refine ⟨fpEnabledTest_off srr0 info, fun hfe hfex hdbg => ?_⟩
  rw [fpEnabledTest_on srr0 info hfe hfex]
  exact take_enters .program srr0 info hdbg

/-- A mask that holds FE0 and FE1 does not matter to the test. -/
theorem msrFE_and {m : Word} (v : Word) (h0 : msrFE0 m = true) (h1 : msrFE1 m = true) : msrFE (v &&& m) = msrFE v := by
  unfold msrFE msrFE0 msrFE1 at *
  rw [bit_and, bit_and, h0, h1, Bool.and_true, Bool.and_true]

/-! Fields of words (00_scope.md R10). -/

/-- The mask of fields holds the bits of the fields that its eight bits select (R415, R580). -/
theorem bit_fieldMask (m : BitVec 8) (k : Nat) (hk : k < 32) : bit (fieldMask m) k = m.getLsbD (7 - k / 4) := by
  have hfield (b : Bool) (j : Nat) (hj : j < 4) : (if b then 0xF#4 else 0#4).getLsbD j = b := by
    cases b
    · simp
    · interval_cases j <;> rfl
  unfold fieldMask bit
  dsimp only
  simp only [BitVec.getLsbD_append]
  interval_cases k <;> exact hfield _ _ (by decide)

/-- A CR field after some of the fields are written. -/
theorem crField_insertBits_fieldMask (cr v : Word) (m : BitVec 8) (f : BitVec 3) :
    crField (insertBits cr (fieldMask m) v) f = if m.getLsbD (7 - f.toNat) then crField v f else crField cr f := by
  have hf : f.toNat < 8 := f.isLt
  have hbit (k : Nat) (h1 : 4 * f.toNat ≤ k) (h2 : k < 4 * f.toNat + 4) :
      bit (insertBits cr (fieldMask m) v) k = if m.getLsbD (7 - f.toNat) then bit v k else bit cr k := by
    rw [bit_insertBits, bit_fieldMask m k (by omega), show k / 4 = f.toNat by omega]
  split
  case isTrue h => exact bits_congr (by omega) fun k h1 h2 => (hbit k h1 h2).trans (if_pos h)
  case isFalse h => exact bits_congr (by omega) fun k h1 h2 => (hbit k h1 h2).trans (if_neg h)

/-- XER[0:3] cleared, the other bits kept (R581). -/
theorem bits_clearedXer (x : Word) :
    bits (x &&& 0x0FFFFFFF#32) 0 4 = 0 ∧ bits (x &&& 0x0FFFFFFF#32) 4 28 = bits x 4 28 := by
  have hmask (k : Nat) (hk : k < 32) : bit 0x0FFFFFFF#32 k = decide (4 ≤ k) := by interval_cases k <;> rfl
  constructor
  · refine (bits_congr (b := 0) (by decide) fun k _ hk => ?_).trans rfl
    rw [bit_and, hmask k (by omega), decide_eq_false (by omega), Bool.and_false]
    exact (bit_zero k).symm
  · refine bits_congr (by decide) fun k h4 hk => ?_
    rw [bit_and, hmask k (by omega), decide_eq_true h4, Bool.and_true]

/-! Moves to a general register. -/

/-- The state in which an instruction ends that writes `v` to rD and nothing else. -/
def gprWritten (s : State) (rD : Reg) (v : Word) : State := (s.setR rD v).advance

/-- Such an instruction delivers its value and changes nothing else but pc. -/
theorem gprWritten_result (s : State) (rD : Reg) (v : Word) :
    (gprWritten s rD v).r rD = v ∧ sameGprsBut s (gprWritten s rD v) [rD] ∧
      gprWritten s rD v = { s with gpr := (gprWritten s rD v).gpr, pc := s.pc + 4 } := by
  refine ⟨r_setR_same s rD v, fun n hn => ?_, rfl⟩
  exact r_setR_ne s v (by simpa using hn)

theorem exec_mfcr (rD : Reg) (s : State) : exec (.mfcr rD) s = .next (gprWritten s rD s.cr) := rfl

theorem exec_mfmsr (rD : Reg) {s : State} (h : msrPR s.msr = false) :
    exec (.mfmsr rD) s = .next (gprWritten s rD s.msr) := by
  have hrun : exec (.mfmsr rD) s = execMfmsr rD s := rfl
  rw [hrun, execMfmsr, supervisorOnly_supervisor _ h]
  rfl

theorem exec_mftb_lower (rD : Reg) {s : State} (h : 268#10 ∉ s.platform.sprErrors) :
    exec (.mftb rD 268) s = .next (gprWritten s rD (s.tb.extractLsb' 0 32)) := if_neg (by simpa using h)

theorem exec_mftb_upper (rD : Reg) {s : State} (h : 269#10 ∉ s.platform.sprErrors) :
    exec (.mftb rD 269) s = .next (gprWritten s rD (s.tb.extractLsb' 32 32)) := if_neg (by simpa using h)

/-! Moves to CR and MSR. -/

theorem exec_mtcrf (crm : BitVec 8) (rS : Reg) (s : State) :
    exec (.mtcrf crm rS) s = .next (crWritten s (insertBits s.cr (fieldMask crm) (s.r rS))) := rfl

theorem exec_mcrxr (crfD : BitVec 3) (s : State) :
    exec (.mcrxr crfD) s =
      .next (crWritten { s with xer := s.xer &&& 0x0FFFFFFF#32 } (setCrField s.cr crfD (bits s.xer 0 4))) := rfl

theorem exec_mtmsr (rS : Reg) {s : State} (h : msrPR s.msr = false) :
    exec (.mtmsr rS) s =
      .next (State.fpEnabledTest { s with msr := s.r rS &&& msrMask, pc := s.pc + 4 } (s.pc + 4) 0x0011) := by
  have hrun : exec (.mtmsr rS) s = execMtmsr rS s := rfl
  rw [hrun, execMtmsr, supervisorOnly_supervisor _ h]
  rfl

/-- Settles O56: the moves from a register end in `gprWritten`, those to CR in `crWritten`, and `mtmsr` with the test of R684. -/
theorem machineRegisterMoves : Obligations.MachineRegisterMoves := by
  refine ⟨?mfcr, ?mtcrf, ?mcrxr, ?mfmsr, ?mtmsr, ?mftb⟩
  case mfcr => exact fun rD s => ⟨_, exec_mfcr rD s, gprWritten_result s rD s.cr⟩
  case mtcrf => exact fun crm rS s => ⟨_, exec_mtcrf crm rS s, crField_insertBits_fieldMask s.cr (s.r rS) crm, rfl⟩
  case mcrxr =>
    intro crfD s
    obtain ⟨hzero, hrest⟩ := bits_clearedXer s.xer
    exact ⟨_, exec_mcrxr crfD s, crField_setCrField_same .., hzero, hrest, fun g hg => crField_setCrField_ne _ _ _ _ hg, rfl⟩
  case mfmsr => exact fun rD s hpr => ⟨_, exec_mfmsr rD hpr, gprWritten_result s rD s.msr⟩
  case mtmsr =>
    intro rS s hpr
    have hfe : msrFE (s.r rS &&& msrMask) = msrFE (s.r rS) := msrFE_and _ rfl rfl
    obtain ⟨hoff, hon⟩ := fpEnabledTest_result { s with msr := s.r rS &&& msrMask, pc := s.pc + 4 } (s.pc + 4) 0x0011
    rw [hfe] at hoff hon
    exact ⟨fun h => (exec_mtmsr rS hpr).trans (congrArg _ (hoff h)), fun h1 h2 h3 => ⟨_, exec_mtmsr rS hpr, hon h1 h2 h3⟩⟩
  case mftb =>
    refine fun rD s => ⟨fun h => ⟨_, exec_mftb_lower rD h, gprWritten_result s rD _⟩,
      fun h => ⟨_, exec_mftb_upper rD h, gprWritten_result s rD _⟩⟩

end Sys2Proof.Proofs

/-! System call and return from an exception (48_branch_cr_system_trap.md R560, R562; 60_exceptions.md R689). -/

namespace Sys2Proof.Proofs

open Sys2Proof Sys2Proof.Machine Sys2Proof.Laws

theorem exec_sc {s : State} (h : s.inDebug = false) :
    exec .sc s = .next (s.draw.2.take .systemCall (s.pc + 4) (s.draw.1.setWidth 16)) := by
  have hrun : exec .sc s = execSc s := rfl
  rw [hrun, execSc, h]
  rfl

/-- The state that `rfi` restores outside debug mode, before the test of R684. -/
def returned (s : State) : State :=
  { s with
    msr := insertBits s.msr 0x0000FFFF#32 s.srr1 &&& msrMask
    freeze := s.freeze && !decide ((s.ecr &&& s.der) = 0)
    pc := s.srr0 &&& 0xFFFFFFFC#32 }.flushQueue

theorem returned_eq (s : State) :
    returned s =
      { s with
        pc := s.srr0 &&& 0xFFFFFFFC#32, msr := (returned s).msr, freeze := (returned s).freeze
        stale := (returned s).stale } := rfl

theorem exec_rfi {s : State} (hpr : msrPR s.msr = false) (hdbg : s.inDebug = false) :
    exec .rfi s = .next ((returned s).fpEnabledTest (returned s).pc 0x0011) := by
  have hrun : exec .rfi s = supervisorOnly s fun s => .next s.returnFromException := rfl
  rw [hrun, supervisorOnly_supervisor _ hpr, State.returnFromException, returned]
  simp only [hdbg, Bool.false_and]
  rfl

/-- MSR[16:31] without its reserved bits comes from SRR1, MSR[0:15] stays (R562). -/
theorem returned_msr {s : State} (h : within s.msr msrMask) :
    (returned s).msr = (s.msr &&& 0xFFFF0000#32) ||| (s.srr1 &&& 0x0000FF43#32) := by
  have hmsr : (returned s).msr = insertBits s.msr 0x0000FFFF#32 s.srr1 &&& msrMask := rfl
  have hhigh : s.msr &&& ~~~0x0000FFFF#32 &&& msrMask = s.msr &&& 0xFFFF0000#32 := by
    refine eq_of_bit fun k hk => ?_
    have hin := (within_iff ..).mp h k hk
    cases hb : bit s.msr k
    · simp [hb]
    · simp [hb, hin hb]
  rw [hmsr, insertBits, BitVec.and_or_distrib_right, hhigh, BitVec.and_assoc]
  rfl

theorem msrFE_returned (s : State) : msrFE (returned s).msr = msrFE s.srr1 := by
  have hmask : msrFE (returned s).msr = msrFE (insertBits s.msr 0x0000FFFF#32 s.srr1) := msrFE_and _ rfl rfl
  have hlow {k : Nat} (hk : bit 0x0000FFFF#32 k = true) : bit (insertBits s.msr 0x0000FFFF#32 s.srr1) k = bit s.srr1 k :=
    (bit_insertBits ..).trans (if_pos hk)
  rw [hmask, msrFE, msrFE0, msrFE1, hlow rfl, hlow rfl]
  rfl

/-- Settles O48: `sc` is an entry, and `rfi` ends in `returned` with the test of R684. -/
theorem systemCallAndReturn : Obligations.SystemCallAndReturn := by
  refine ⟨fun s hdbg => ?sc, fun s hdbg hpr hmsr => ?rfi⟩
  case sc =>
    have henters := take_enters (s := s.draw.2) .systemCall (s.pc + 4) (s.draw.1.setWidth 16) hdbg
    exact ⟨_, _, exec_sc hdbg, henters⟩
  case rfi =>
    obtain ⟨hoff, hon⟩ := fpEnabledTest_result (returned s) (returned s).pc 0x0011
    rw [msrFE_returned] at hoff hon
    exact ⟨returned s, _, exec_rfi hpr hdbg, rfl, returned_msr hmsr, sameMemory_of_mem rfl, returned_eq s, hoff,
      fun h1 h2 => hon h1 h2 hdbg⟩

end Sys2Proof.Proofs

/-! Moves to and from the FPSCR (44_fp_convert_compare_fpscr.md R410 to R418). -/

namespace Sys2Proof.Proofs

open Sys2Proof Sys2Proof.Machine Sys2Proof.Laws

/-! The bits that a move writes (10_state.md R40, R41). -/

/-- A move writes every bit but FEX, VX and bit 20. -/
theorem bit_fpWritable (k : Nat) (hk : k < 32) : bit fpWritable k = decide (k ≠ 1 ∧ k ≠ 2 ∧ k ≠ 20) := by
  interval_cases k <;> rfl

/-- `mcrfs` clears FX and the exception bits of its field (R412). -/
theorem bit_mcrfsMask (crfS : BitVec 3) (k : Nat) (hk : k < 32) :
    bit (mcrfsMask crfS) k = (decide (k / 4 = crfS.toNat) && (k == 0 || bit fpExceptionMask k)) := by
  have hfx : bit 0x80000000#32 k = (k == 0) := by interval_cases k <;> rfl
  rw [mcrfsMask, bit_and, bit_or, crMask_bit crfS k hk, hfx, Bool.and_comm, Bool.or_comm]

/-- The FPSCR that `mtfsb1` writes: a bit set, and FX with an exception bit that was 0 (R417). -/
def fpscrWithBit (f : Word) (b : Nat) : Word :=
  let set := bitMask b &&& fpWritable
  if (set &&& fpExceptionMask &&& ~~~f) = 0 then f ||| set else setBit (f ||| set) 0 true

/-- The exception bits can be written. -/
theorem fpWritable_of_exception {b : Nat} (hb : b < 32) (h : bit fpExceptionMask b = true) : bit fpWritable b = true := by
  obtain ⟨h3, h13⟩ := exceptionBit_range hb h
  rw [bit_fpWritable b hb, decide_eq_true_eq]
  omega

/-- `mtfsb1` sets a new exception bit exactly when its bit is one and was 0. -/
theorem newException_iff (f : Word) {b : Nat} (hb : b < 32) :
    bitMask b &&& fpWritable &&& fpExceptionMask &&& ~~~f = 0 ↔ (bit fpExceptionMask b && !bit f b) = false := by
  have hbit (k : Nat) (hk : k < 32) :
      bit (bitMask b &&& fpWritable &&& fpExceptionMask &&& ~~~f) k =
        (decide (k = b) && bit fpWritable k && bit fpExceptionMask k && !bit f k) := by
    simp only [bit_and, bit_not, bit_bitMask b k hb hk]
  constructor
  · intro h
    have hb0 := hbit b hb
    rw [h, decide_eq_true rfl, Bool.true_and] at hb0
    cases he : bit fpExceptionMask b
    · rfl
    · rw [fpWritable_of_exception hb he, he] at hb0
      simpa using hb0.symm
  · refine fun h => eq_of_bit fun k hk => ?_
    rw [hbit k hk]
    by_cases hkb : k = b
    · rw [hkb, Bool.and_assoc, h, Bool.and_false]
      exact (bit_zero b).symm
    · rw [decide_eq_false hkb]
      exact (bit_zero k).symm

theorem bit_fpscrWithBit (f : Word) {b k : Nat} (hb : b < 32) (hk : k < 32) (hw : bit fpWritable k = true) :
    bit (fpscrWithBit f b) k =
      if k = b then true else if k = 0 then bit f 0 || (bit fpExceptionMask b && !bit f b) else bit f k := by
  have hset : bit (f ||| (bitMask b &&& fpWritable)) k = (bit f k || decide (k = b)) := by
    rw [bit_or, bit_and, bit_bitMask b k hb hk, hw, Bool.and_true]
  unfold fpscrWithBit
  dsimp only
  by_cases hkb : k = b
  · rw [if_pos hkb]
    rw [decide_eq_true hkb, Bool.or_true] at hset
    split
    case isTrue => exact hset
    case isFalse => rw [bit_setBit _ _ _ _ (by decide) hk, hset, ite_self]
  · rw [if_neg hkb]
    rw [decide_eq_false hkb, Bool.or_false] at hset
    split
    case isTrue h =>
      rw [hset, (newException_iff f hb).mp h, Bool.or_false]
      split
      case isTrue h0 => rw [h0]
      case isFalse => rfl
    case isFalse h =>
      rw [bit_setBit _ _ _ _ (by decide) hk, hset, Bool.eq_true_of_not_eq_false ((newException_iff f hb).not.mp h),
        Bool.or_true]

/-! The instructions with MSR[FP] = 1. -/

section
variable {s : State} (h : msrFP s.msr = true)
include h

theorem exec_mtfsfi (crfD : BitVec 3) (imm : BitVec 4) (rc : Bool) :
    exec (.mtfsfi crfD imm rc) s =
      movedToFpscr (insertBits s.fpscr (0xF0000000#32 >>> (4 * crfD.toNat) &&& fpWritable)
        (imm.setWidth 32 <<< (28 - 4 * crfD.toNat))) rc s := by
  have hrun : exec (.mtfsfi crfD imm rc) s = execMtfsfi crfD imm rc s := rfl
  rw [hrun, execMtfsfi, fpAvailable_on _ h]

theorem exec_mtfsf (fm : BitVec 8) (frB : Reg) (rc : Bool) :
    exec (.mtfsf fm frB rc) s =
      movedToFpscr (insertBits s.fpscr (fieldMask fm &&& fpWritable) ((s.f frB).setWidth 32)) rc s := by
  have hrun : exec (.mtfsf fm frB rc) s = execMtfsf fm frB rc s := rfl
  rw [hrun, execMtfsf, fpAvailable_on _ h]

theorem exec_mtfsb0 (crbD : BitVec 5) (rc : Bool) :
    exec (.mtfsb0 crbD rc) s = movedToFpscr (s.fpscr &&& ~~~(bitMask crbD.toNat &&& fpWritable)) rc s := by
  have hrun : exec (.mtfsb0 crbD rc) s = execMtfsb0 crbD rc s := rfl
  rw [hrun, execMtfsb0, fpAvailable_on _ h]

theorem exec_mtfsb1 (crbD : BitVec 5) (rc : Bool) :
    exec (.mtfsb1 crbD rc) s = movedToFpscr (fpscrWithBit s.fpscr crbD.toNat) rc s := by
  have hrun : exec (.mtfsb1 crbD rc) s = execMtfsb1 crbD rc s := rfl
  rw [hrun, execMtfsb1, fpAvailable_on _ h]
  rfl

theorem exec_mcrfs (crfD crfS : BitVec 3) :
    exec (.mcrfs crfD crfS) s =
      movedToFpscr (s.fpscr &&& ~~~(mcrfsMask crfS)) false (s.setCr crfD (crField s.fpscr crfS)) := by
  have hrun : exec (.mcrfs crfD crfS) s = execMcrfs crfD crfS s := rfl
  rw [hrun, execMcrfs, fpAvailable_on _ h]

end

/-- Each of the moves of `fpscrForm` writes an FPSCR with the bits of its form, and ends alike. -/
theorem exec_fpscrForm {i : Instr} {s : State} {x : FpscrForm} (h : fpscrForm s i = some x) (hfp : msrFP s.msr = true) :
    ∃ f, exec i s = movedToFpscr f x.rc s ∧ ∀ k, k < 32 → bit fpWritable k = true → bit f k = x.bitOf k := by
  unfold fpscrForm at h
  split at h <;> cases h
  case h_1 crfD imm rc =>
    refine ⟨_, exec_mtfsfi hfp crfD imm rc, fun k hk hw => ?_⟩
    rw [bit_insertBits, bit_and, crMask_bit crfD k hk, hw, Bool.and_true]
    simp only [decide_eq_true_eq]
    split
    case isTrue hfield => exact crValue_bit crfD imm k hk hfield
    case isFalse => rfl
  case h_2 fm frB rc =>
    refine ⟨_, exec_mtfsf hfp fm frB rc, fun k hk hw => ?_⟩
    have hlow : bit ((s.f frB).setWidth 32) k = dbit (s.f frB) (32 + k) := by
      rw [bit, BitVec.getLsbD_setWidth, decide_eq_true (by omega), Bool.true_and, dbit, show 63 - (32 + k) = 31 - k by omega]
    rw [bit_insertBits, bit_and, bit_fieldMask fm k hk, hw, Bool.and_true, hlow]
  case h_3 crbD rc =>
    refine ⟨_, exec_mtfsb0 hfp crbD rc, fun k hk hw => ?_⟩
    rw [bit_and, bit_not, bit_and, bit_bitMask _ _ crbD.isLt hk, hw, Bool.and_true]
    by_cases hkb : k = crbD.toNat <;> simp [hkb]
  case h_4 crbD rc => exact ⟨_, exec_mtfsb1 hfp crbD rc, fun k hk hw => bit_fpscrWithBit s.fpscr crbD.isLt hk hw⟩

/-! The state after a move (R410). -/

/-- The state in which a move to the FPSCR ends, before the test of R684. -/
def fpscrMoved (f : Word) (rc : Bool) (s : State) : State :=
  ({ s with fpscr := fpSummary f }.recordFp rc).noCauses.advance

theorem causesAre_congr {dnc dnb dna tr : Bool} {s t u : State} (h : u.fpecr = t.fpecr) (hc : causesAre dnc dnb dna tr s t) :
    causesAre dnc dnb dna tr s u := by
  unfold causesAre at *
  rwa [h]

theorem recordedFp_congr {rc : Bool} {s t u : State} (hcr : u.cr = t.cr) (hf : u.fpscr = t.fpscr) (h : recordedFp rc s t) :
    recordedFp rc s u := by
  unfold recordedFp sameCrBut at *
  rwa [hcr, hf]

section
variable (f : Word) (rc : Bool) (s : State)

theorem movedToFpscr_eq : movedToFpscr f rc s = .next ((fpscrMoved f rc s).fpEnabledTest s.pc 0x0010) := rfl

theorem fpscrMoved_fpscr : (fpscrMoved f rc s).fpscr = fpSummary f := by
  rw [fpscrMoved, advance_fpscr, State.noCauses, setCauses_fpscr, recordFp_fpscr]

theorem bit_fpscrMoved {k : Nat} (hk : k < 32) (hw : bit fpWritable k = true) : bit (fpscrMoved f rc s).fpscr k = bit f k := by
  rw [bit_fpWritable k hk, decide_eq_true_eq] at hw
  obtain ⟨h1, h2, h20⟩ := hw
  rw [fpscrMoved_fpscr, bit_fpSummary f k hk, if_neg h1, if_neg h2, if_neg h20]

theorem fpscrSummed_fpscrMoved : (fpscrMoved f rc s).fpscrSummed :=
  fpscrSummed_fpSummary _ f (fpscrMoved_fpscr f rc s)

/-- A move to the FPSCR changes the FPSCR, FPECR, CR and CIA alone. -/
theorem fpscrMoved_eq :
    fpscrMoved f rc s =
      { s with
        fpscr := (fpscrMoved f rc s).fpscr, fpecr := (fpscrMoved f rc s).fpecr, cr := (fpscrMoved f rc s).cr
        pc := s.pc + 4 } := by
  unfold fpscrMoved State.noCauses
  rw [recordFp_eq, setCauses_eq]
  rfl

theorem sameMemory_fpscrMoved : sameMemory s (fpscrMoved f rc s) := by
  refine sameMemory_of_mem ?_
  rw [fpscrMoved_eq]

theorem causesAre_fpscrMoved : causesAre false false false false s (fpscrMoved f rc s) := by
  have hcauses := causesAre_setCauses (s := s) (t := { s with fpscr := fpSummary f }.recordFp rc) false false false false
    (recordFp_fpecr ..)
  exact causesAre_congr (advance_fpecr ..) hcauses

theorem recordedFp_fpscrMoved : recordedFp rc s (fpscrMoved f rc s) := by
  have hrecord := recordedFp_recordFp rc s { s with fpscr := fpSummary f } rfl
  exact recordedFp_congr (setCauses_cr ..) (setCauses_fpscr ..) hrecord

/-- The program exception may follow a move (R684): with FEX set in precise mode, else not. -/
theorem fpscrMoved_exception :
    (¬(msrFE s.msr = true ∧ bit (fpscrMoved f rc s).fpscr 1 = true) →
      (fpscrMoved f rc s).fpEnabledTest s.pc 0x0010 = fpscrMoved f rc s) ∧
    (msrFE s.msr = true → bit (fpscrMoved f rc s).fpscr 1 = true → s.inDebug = false →
      enters .program s.pc 0x0010 (fpscrMoved f rc s) ((fpscrMoved f rc s).fpEnabledTest s.pc 0x0010)) := by
  have hresult := fpEnabledTest_result (fpscrMoved f rc s) s.pc 0x0010
  have hmsr : (fpscrMoved f rc s).msr = s.msr := by rw [fpscrMoved_eq]
  have hdbg : (fpscrMoved f rc s).inDebug = s.inDebug := by rw [fpscrMoved_eq]
  rwa [hmsr, hdbg] at hresult

end

/-! The state after `mffs` (R411). -/

/-- The state in which `mffs` ends. -/
def fpscrDelivered (frD : Reg) (rc : Bool) (s : State) : State :=
  ((s.draw.2.setF frD (s.draw.1.extractLsb' 32 32 ++ s.fpscr : BitVec 64)).recordFp rc).noCauses.advance

theorem exec_mffs (frD : Reg) (rc : Bool) {s : State} (h : msrFP s.msr = true) :
    exec (.mffs frD rc) s = .next (fpscrDelivered frD rc s) := by
  have hrun : exec (.mffs frD rc) s = execMffs frD rc s := rfl
  rw [hrun, execMffs, fpAvailable_on _ h]
  rfl

section
variable (frD : Reg) (rc : Bool) (s : State)

theorem fpscrDelivered_f (n : Reg) :
    (fpscrDelivered frD rc s).f n = if n = frD then (s.draw.1.extractLsb' 32 32 ++ s.fpscr : BitVec 64) else s.f n := by
  have hfpr : (fpscrDelivered frD rc s).fpr =
      (s.draw.2.setF frD (s.draw.1.extractLsb' 32 32 ++ s.fpscr : BitVec 64)).fpr := by
    rw [fpscrDelivered, advance_fpr, State.noCauses, setCauses_fpr, recordFp_fpr]
  rw [f_congr hfpr, f_setF]
  rfl

/-- `mffs` changes frD, FPECR, CR, CIA and the count of free values alone. -/
theorem fpscrDelivered_eq :
    fpscrDelivered frD rc s =
      { s with
        fpr := (fpscrDelivered frD rc s).fpr, fpecr := (fpscrDelivered frD rc s).fpecr, cr := (fpscrDelivered frD rc s).cr
        pc := s.pc + 4, freeCount := (fpscrDelivered frD rc s).freeCount } := by
  unfold fpscrDelivered State.noCauses
  rw [recordFp_eq, setCauses_eq]
  rfl

/-- The low word of frD after `mffs` is the FPSCR, and no other register of the floating point changes. -/
theorem fpscrDelivered_fprs :
    ((fpscrDelivered frD rc s).f frD).extractLsb' 0 32 = s.fpscr ∧ sameFprsBut s (fpscrDelivered frD rc s) [frD] := by
  refine ⟨?_, fun n hn => ?_⟩
  · rw [fpscrDelivered_f, if_pos rfl]
    exact BitVec.extractLsb'_append_eq_right
  · rw [fpscrDelivered_f, if_neg (by simpa using hn)]

theorem sameMemory_fpscrDelivered : sameMemory s (fpscrDelivered frD rc s) := by
  refine sameMemory_of_mem ?_
  rw [fpscrDelivered_eq]

theorem causesAre_fpscrDelivered : causesAre false false false false s (fpscrDelivered frD rc s) := by
  have hcauses := causesAre_setCauses (s := s)
    (t := (s.draw.2.setF frD (s.draw.1.extractLsb' 32 32 ++ s.fpscr : BitVec 64)).recordFp rc) false false false false
    (recordFp_fpecr ..)
  exact causesAre_congr (advance_fpecr ..) hcauses

theorem recordedFp_fpscrDelivered : recordedFp rc s (fpscrDelivered frD rc s) := by
  have hrecord := recordedFp_recordFp rc s (s.draw.2.setF frD (s.draw.1.extractLsb' 32 32 ++ s.fpscr : BitVec 64)) rfl
  exact recordedFp_congr (setCauses_cr ..) (setCauses_fpscr ..) hrecord

end

/-- Settles O42: the moves to the FPSCR and `mcrfs` end in `fpscrMoved` with the test of R684, `mffs` in `fpscrDelivered`. -/
theorem fpscrMoveResult : Obligations.FpscrMoveResult := by
  have writable {k : Nat} (hk : k < 32) (h1 : k ≠ 1) (h2 : k ≠ 2) (h20 : k ≠ 20) : bit fpWritable k = true :=
    (bit_fpWritable k hk).trans (decide_eq_true ⟨h1, h2, h20⟩)
  refine ⟨?moves, ?mcrfs, ?mffs⟩
  case moves =>
    intro i s x hx hfp
    obtain ⟨f, hexec, hbits⟩ := exec_fpscrForm hx hfp
    refine ⟨fpscrMoved f x.rc s, _, hexec.trans (movedToFpscr_eq f x.rc s), fun k hk h1 h2 h20 => ?_,
      fpscrSummed_fpscrMoved f x.rc s, recordedFp_fpscrMoved f x.rc s, sameMemory_fpscrMoved f x.rc s,
      causesAre_fpscrMoved f x.rc s, fpscrMoved_eq f x.rc s, fpscrMoved_exception f x.rc s⟩
    have hw := writable hk h1 h2 h20
    rw [bit_fpscrMoved f x.rc s hk hw, hbits k hk hw]
  case mcrfs =>
    intro crfD crfS s hfp
    let f := s.fpscr &&& ~~~(mcrfsMask crfS)
    let u := s.setCr crfD (crField s.fpscr crfS)
    have hcr : (fpscrMoved f false u).cr = setCrField s.cr crfD (crField s.fpscr crfS) := by
      rw [fpscrMoved, advance_cr, State.noCauses, setCauses_cr]
      rfl
    refine ⟨fpscrMoved f false u, _, (exec_mcrfs hfp crfD crfS).trans (movedToFpscr_eq f false u), ?_,
      fun k hk h1 h2 h20 => ?_, fpscrSummed_fpscrMoved f false u, fun g hg => ?_, sameMemory_fpscrMoved f false u,
      causesAre_fpscrMoved f false u, fpscrMoved_eq f false u, fpscrMoved_exception f false u⟩
    · rw [hcr, crField_setCrField_same]
    · rw [bit_fpscrMoved f false u hk (writable hk h1 h2 h20), bit_and, bit_not, bit_mcrfsMask crfS k hk]
    · rw [hcr, crField_setCrField_ne _ _ _ _ hg]
  case mffs =>
    intro frD rc s hfp
    obtain ⟨hlow, hother⟩ := fpscrDelivered_fprs frD rc s
    exact ⟨_, exec_mffs frD rc hfp, hlow, recordedFp_fpscrDelivered frD rc s, hother, sameMemory_fpscrDelivered frD rc s,
      causesAre_fpscrDelivered frD rc s, fpscrDelivered_eq frD rc s⟩

end Sys2Proof.Proofs

/-! Bus errors: the accesses that end in one, and the machine check exception, debug mode or checkstop after it (20_memory.md R149;
60_exceptions.md R640, R664, R665, R673). -/

namespace Sys2Proof.Proofs

open Sys2Proof Sys2Proof.Machine Sys2Proof.Laws

/-! What a bus error does (R664, R665). -/

/-- `s` with other memory, other older versions of it for fetches, and other records of the model. -/
def accessed (s : State) (mem : List Host.Cell) (stale : List StaleWord) (lbus : List BusCycle) (freeCount : Nat)
    (excTaken : Option ExcClass) : State :=
  { s with mem := mem, stale := stale, lbus := lbus, freeCount := freeCount, excTaken := excTaken }

/-- Nothing but memory, what fetches may still see of it, and the records of the model differs. -/
def onlyAccess (s u : State) : Prop := u = accessed s u.mem u.stale u.lbus u.freeCount u.excTaken

/-- The registers after an entry under any bit of ECR (R652 to R654). -/
theorem takeVia_entersRegisters (x : Exc) (causeBit : Nat) (srr0 : Word) (info : BitVec 16) {s : State}
    (h : s.inDebug = false) : entersRegisters x causeBit srr0 info s (s.takeVia x causeBit srr0 info) := by
  obtain ⟨hinfo, hlow⟩ := srr1Of_bits info s.msr
  rw [takeVia_eq s x causeBit srr0 info h]
  exact ⟨rfl, hinfo, hlow, enteredMsr_entryMsr x s.msr, rfl, rfl, rfl, rfl, rfl, rfl, rfl, rfl, rfl⟩

/-- What an entry leaves alone. -/
theorem takeVia_kept (s : State) (x : Exc) (causeBit : Nat) (srr0 : Word) (info : BitVec 16) (h : s.inDebug = false) :
    let t := s.takeVia x causeBit srr0 info
    t.mem = s.mem ∧ t.dar = s.dar ∧ t.dsisr = s.dsisr ∧ t.checkstop = s.checkstop ∧ t.intrusions = s.intrusions := by
  intro t
  have ht : t = s.takeVia x causeBit srr0 info := rfl
  rw [takeVia_eq s x causeBit srr0 info h] at ht
  rw [ht]
  exact ⟨rfl, rfl, rfl, rfl, rfl⟩

/-- A machine check outside debug mode, with machine checks disabled and debug mode entered in its place. -/
theorem machineCheck_debug {s : State} (info : BitVec 16) (update : State → State) (h : s.inDebug = false)
    (hm : msrME s.msr = false) (he : s.debugEnabled = true) (hd : bit s.der 2 = true) :
    s.machineCheck info update = (update s).takeVia .machineCheck 2 s.pc info := by
  simp [State.machineCheck, chstpBit, h, hm, he, hd]

/-- A machine check outside debug mode that neither exception nor debug mode answers stops the processor. -/
theorem machineCheck_stops {s : State} (info : BitVec 16) (update : State → State) (h : s.inDebug = false) (hc : ¬checks s) :
    s.machineCheck info update = { s with checkstop := true, ecr := setBit s.ecr 2 true, excTaken := some .before } := by
  obtain ⟨hm, hd⟩ : msrME s.msr = false ∧ (s.debugEnabled = true → bit s.der 2 = false) := by simpa [checks] using hc
  cases he : s.debugEnabled <;> simp [State.machineCheck, chstpBit, h, hm, he, hd]

/-- DAR and DSISR as a bus error writes them. -/
def withFault (dar dsisr : Word) (s : State) : State := { s with dar := dar, dsisr := dsisr }

/-- What follows an access of `s` that left `u` and ended in a bus error: the outcome by MSR[ME] and DER[CHSTPE], memory as the
access left it, and DAR and DSISR as given where they are written. -/
def endsInBusError (info : BitVec 16) (dar dsisr : Word) (s u t : State) : Prop :=
  machineChecks info s t ∧ t.mem = u.mem ∧ t.intrusions = s.intrusions ∧ (checks s → t.dar = dar ∧ t.dsisr = dsisr) ∧
    (¬checks s → t.dar = s.dar ∧ t.dsisr = s.dsisr)

theorem machineCheck_endsInBusError {s u : State} (info : BitVec 16) (dar dsisr : Word) (hu : onlyAccess s u)
    (h : s.inDebug = false) : endsInBusError info dar dsisr s u (u.machineCheck info (withFault dar dsisr)) := by
  unfold onlyAccess at hu
  generalize u.mem = m, u.stale = st, u.lbus = l, u.freeCount = n, u.excTaken = e at hu
  subst hu
  let v := accessed s m st l n e
  let w := withFault dar dsisr v
  have hv : v.inDebug = false := h
  have hw : w.inDebug = false := h
  by_cases hm : msrME s.msr = true
  · have hc : checks s := .inl hm
    obtain ⟨hmem, hdar, hdsisr, hstop, hintr⟩ := takeVia_kept w .machineCheck 3 s.pc info hw
    obtain ⟨hregs, hat, -⟩ := take_enters .machineCheck s.pc info hw
    rw [machineCheck_enabled (s := v) info _ hv hm]
    exact ⟨(if_pos hm).mpr ⟨hregs, hat, hstop⟩, hmem, hintr, fun _ => ⟨hdar, hdsisr⟩, fun hn => absurd hc hn⟩
  · by_cases hd : s.debugEnabled = true ∧ bit s.der 2 = true
    · have hc : checks s := .inr hd
      obtain ⟨hmem, hdar, hdsisr, hstop, hintr⟩ := takeVia_kept w .machineCheck 2 s.pc info hw
      obtain ⟨hin, hpc⟩ := takeVia_debug .machineCheck s.pc info hw hd.1 hd.2
      have hregs := takeVia_entersRegisters .machineCheck 2 s.pc info hw
      rw [machineCheck_debug (s := v) info _ hv (Bool.eq_false_of_not_eq_true hm) hd.1 hd.2]
      exact ⟨(if_neg hm).mpr ((if_pos hd).mpr ⟨hregs, hin, hpc, hstop⟩), hmem, hintr, fun _ => ⟨hdar, hdsisr⟩,
        fun hn => absurd hc hn⟩
    · have hc : ¬checks s := fun hc => hc.elim hm hd
      rw [machineCheck_stops (s := v) info _ hv hc]
      exact ⟨(if_neg hm).mpr ((if_neg hd).mpr ⟨rfl, rfl, rfl⟩), rfl, rfl, fun hn => absurd hn hc, fun _ => ⟨rfl, rfl⟩⟩

end Sys2Proof.Proofs

/-! Accesses that end in a bus error: the first failing cycle, and the bytes that a store leaves (20_memory.md R149, R152). -/

namespace Sys2Proof.Proofs

open Sys2Proof Sys2Proof.Machine Sys2Proof.Laws

/-! Reads. -/

/-- A read ends at its first failing cycle, and only the record of cycles has changed. -/
theorem readCycles_firstError (x : Bool) (c : Cycle) (post : List Cycle) : ∀ (pre : List Cycle) (s : State),
    s.intrusions = [] → (∀ e ∈ pre, s.busError .load e.addr e.size = false) → s.busError .load c.addr c.size = true →
    ∃ l, readCycles x (pre ++ c :: post) s = .busError c.ea { s with lbus := l }
  | [], s, hi, _, hc => ⟨s.lbus, readCycles_error x c post s hi hc⟩
  | e :: pre, s, hi, hpre, hc => by
    have he : s.busError .load e.addr e.size = false := hpre e (by simp)
    obtain ⟨l, hl⟩ := readCycles_firstError x c post pre (s.record e false x (s.bytesAt e.addr e.size)) hi
      (fun d hd => hpre d (List.mem_cons_of_mem e hd)) hc
    refine ⟨l, ?_⟩
    simp only [List.cons_append, readCycles, intrude_nil hi, he, Bool.false_eq_true, if_false, hl]
    rfl

theorem load_firstError {s : State} {ea : Word} {n : Nat} {c : Cycle} (x : Bool) (hi : s.intrusions = [])
    (h : s.firstError .load (s.operandCycles ea n) c) : ∃ l, s.load ea n x = .busError c.ea { s with lbus := l } := by
  obtain ⟨pre, post, hcs, hpre, hc⟩ := h
  obtain ⟨l, hl⟩ := readCycles_firstError x c post pre s hi hpre hc
  exact ⟨l, by rw [State.load, hcs, hl]⟩

/-! The cycles before one of an operand. -/

/-- The first cycle of an operand is the first one of every shorter operand that it fits in. -/
theorem cycleSize_of_le {ea : Word} {m n : Nat} (h : cycleSize ea n ≤ m) (hmn : m ≤ n) : cycleSize ea m = cycleSize ea n := by
  unfold cycleSize at *
  split_ifs at * <;> omega

/-- The cycles before one of an operand are the cycles of the bytes before it. -/
theorem splitCycles_before : ∀ (fuel : Nat) (ea : Word) (n : Nat) (pre : List Cycle) (c : Cycle) (post : List Cycle),
    splitCycles fuel ea n = pre ++ c :: post →
    ∃ d, pre = splitCycles fuel ea d ∧ c.addr = ea + BitVec.ofNat 32 d ∧ d + c.size ≤ n
  | 0, _, _, pre, c, post, h => absurd h.symm (by simp [splitCycles])
  | fuel + 1, ea, n, pre, c, post, h => by
    rw [splitCycles] at h
    by_cases hn : n = 0
    · rw [if_pos hn] at h
      exact absurd h.symm (by simp)
    · rw [if_neg hn] at h
      have hle := cycleSize_le ea (Nat.pos_of_ne_zero hn)
      have hpos := cycleSize_pos ea n
      cases pre with
      | nil =>
        obtain ⟨rfl, -⟩ := List.cons_eq_cons.mp h
        exact ⟨0, rfl, (BitVec.add_zero ea).symm, by simpa using hle⟩
      | cons p pre =>
        obtain ⟨rfl, htail⟩ := List.cons_eq_cons.mp h
        obtain ⟨d, rfl, haddr, hd⟩ := splitCycles_before fuel _ _ pre c post htail
        have hsize : cycleSize ea (cycleSize ea n + d) = cycleSize ea n := cycleSize_of_le (by omega) (by omega)
        refine ⟨cycleSize ea n + d, ?_, ?_, by omega⟩
        · rw [splitCycles, if_neg (by omega)]
          simp only [hsize, Nat.add_sub_cancel_left]
        · rw [haddr, BitVec.ofNat_add, BitVec.add_assoc]

theorem splitCycles_sizes : ∀ (fuel : Nat) (ea : Word) (n : Nat), n ≤ fuel → ((splitCycles fuel ea n).map (·.size)).sum = n
  | 0, _, n, h => by
    obtain rfl : n = 0 := by omega
    rfl
  | fuel + 1, ea, n, h => by
    rw [splitCycles]
    split
    case isTrue hn => exact hn.symm
    case isFalse hn =>
      have hle := cycleSize_le ea (Nat.pos_of_ne_zero hn)
      have hpos := cycleSize_pos ea n
      rw [List.map_cons, List.sum_cons, splitCycles_sizes fuel _ _ (by omega)]
      exact Nat.add_sub_cancel' hle

/-- In either byte order, for an operand of at most four bytes: a cycle lies `d` bytes after the address on the bus, and the cycles
before it are those of the `d` bytes. -/
theorem operandCycles_before {s : State} {ea : Word} {n : Nat} {pre post : List Cycle} {c : Cycle} (hn : n ≠ 8)
    (h : s.operandCycles ea n = pre ++ c :: post) :
    ∃ d, pre = splitCycles n (s.busAddress ea n) d ∧ c.addr = s.busAddress ea n + BitVec.ofNat 32 d ∧ d + c.size ≤ n := by
  unfold State.operandCycles at h
  unfold State.busAddress
  cases hle : msrLE s.msr
  · simp only [hle, Bool.false_and, Bool.false_eq_true, if_false] at h ⊢
    exact splitCycles_before n ea n pre c post h
  · simp only [hle, Bool.true_and, bne_iff_ne, ne_eq, hn, not_false_eq_true, if_true] at h ⊢
    obtain ⟨rfl, rfl, rfl⟩ : pre = [] ∧ { ea := ea, addr := leModify ea n, size := n } = c ∧ [] = post := by
      cases pre with
      | nil => exact ⟨rfl, List.cons_eq_cons.mp h⟩
      | cons p pre => exact absurd (List.cons_eq_cons.mp h).2 (by simp)
    exact ⟨0, by cases n <;> rfl, (BitVec.add_zero _).symm, by simp⟩

/-! Writes. -/

/-- Cycles that are written without an error, and the cycles after them. -/
theorem writeCycles_append (x : Bool) (cs : List Cycle) (bs : List Byte) {t : State} : ∀ (pre : List Cycle) (as : List Byte)
    (s : State), (pre.map (·.size)).sum = as.length → writeCycles x pre as s = .done () t →
    writeCycles x (pre ++ cs) (as ++ bs) s = writeCycles x cs bs t
  | [], as, s, hlen, h => by
    obtain rfl : as = [] := List.eq_nil_of_length_eq_zero hlen.symm
    cases h
    rfl
  | c :: pre, as, s, hlen, h => by
    rw [List.map_cons, List.sum_cons] at hlen
    simp only [writeCycles, List.cons_append] at h ⊢
    split at h
    case isTrue => cases h
    case isFalse hc =>
      rw [if_neg hc, List.take_append_of_le_length (by omega), List.drop_append_of_le_length (by omega)]
      exact writeCycles_append x cs bs pre _ _ (by rw [List.length_drop]; omega) h

/-- Each byte of a mix is the old or the new one. -/
theorem mixBytes_getElem? (v : Dword) : ∀ (os bs : List Byte) (k j : Nat), os.length = bs.length →
    (mixBytes v os bs k)[j]? = os[j]? ∨ (mixBytes v os bs k)[j]? = bs[j]?
  | [], [], _, _, _ => .inl rfl
  | o :: os, b :: bs, k, 0, _ => by
    rw [mixBytes]
    cases v.getLsbD k
    · exact .inl rfl
    · exact .inr rfl
  | o :: os, b :: bs, k, j + 1, h => mixBytes_getElem? v os bs (k + 1) j (Nat.succ.inj h)

theorem mixBytes_length (v : Dword) : ∀ (os bs : List Byte) (k : Nat), os.length = bs.length →
    (mixBytes v os bs k).length = bs.length
  | [], [], _, _ => rfl
  | _ :: os, _ :: bs, k, h => congrArg Nat.succ (mixBytes_length v os bs (k + 1) (Nat.succ.inj h))

/-- A store cycle that ended in a bus error: each of its bytes is the old or the new one, the others are as before. -/
theorem byteAt_writeFailed (s : State) (a b : Word) (bs : List Byte) (hw : Memory.wf s.mem = true) (hl : bs.length < 2 ^ 32) :
    ((s.writeFailed a bs).byteAt b = s.byteAt b ∨ some ((s.writeFailed a bs).byteAt b) = bs[(b - a).toNat]?) ∧
      (bs.length ≤ (b - a).toNat → (s.writeFailed a bs).byteAt b = s.byteAt b) := by
  have hold : (s.bytesAt a bs.length).length = bs.length := bytesAt_length s bs.length a
  have hmix := mixBytes_length s.draw.1 _ bs 0 hold
  have hread : (s.writeFailed a bs).byteAt b =
      ((mixBytes s.draw.1 (s.bytesAt a bs.length) bs 0)[(b - a).toNat]?).getD (s.byteAt b) :=
    byteAt_writeBytes s.draw.2 a b _ hw (hmix.trans_lt hl)
  rw [hread]
  constructor
  · rcases mixBytes_getElem? s.draw.1 _ bs 0 (b - a).toNat hold with h | h <;> rw [h]
    · rw [bytesAt_getElem?, BitVec.ofNat_toNat, BitVec.setWidth_eq, BitVec.add_comm, BitVec.sub_add_cancel]
      split <;> exact .inl rfl
    · cases bs[(b - a).toNat]? with
      | none => exact .inl rfl
      | some v => exact .inr rfl
  · intro hout
    rw [List.getElem?_eq_none (by omega)]
    rfl

theorem writeFailed_onlyAccess (s : State) (a : Word) (bs : List Byte) : onlyAccess s (s.writeFailed a bs) := by
  unfold onlyAccess accessed State.writeFailed State.writeBytes State.noteStale
  dsimp only
  split <;> rfl

/-- A store of the bytes `bs` at `a` whose cycle of `n` bytes after the first `d` fails: the bytes before it are stored, each of its
own is the old or the new one, all others are as before. -/
def partlyStored (bs : List Byte) (a : Word) (d n : Nat) (s t : State) : Prop :=
  ∀ b : Word,
    ((b - a).toNat < d → some (t.byteAt b) = bs[(b - a).toNat]?) ∧
    (d ≤ (b - a).toNat → (b - a).toNat < d + n →
      t.byteAt b = s.byteAt b ∨ some (t.byteAt b) = bs[(b - a).toNat]?) ∧
    (d + n ≤ (b - a).toNat → t.byteAt b = s.byteAt b)

theorem onlyAccess_trans {s t u : State} (ht : onlyAccess s t) (hu : onlyAccess t u) : onlyAccess s u := by
  unfold onlyAccess at *
  rw [ht] at hu
  exact hu

/-- A write ends at its first failing cycle. -/
theorem writeCycles_firstError (x : Bool) {s : State} {fuel d : Nat} {a : Word} {bs : List Byte} {c : Cycle} (post : List Cycle)
    (hi : s.intrusions = []) (hw : Memory.wf s.mem = true) (hfuel : bs.length ≤ fuel) (hl : bs.length < 2 ^ 32)
    (haddr : c.addr = a + BitVec.ofNat 32 d) (hd : d + c.size ≤ bs.length)
    (hpre : ∀ e ∈ splitCycles fuel a d, s.busError .store e.addr e.size = false)
    (hc : s.busError .store c.addr c.size = true) :
    ∃ t, writeCycles x (splitCycles fuel a d ++ c :: post) bs s = .busError c.ea t ∧ onlyAccess s t ∧
      partlyStored bs a d c.size s t := by
  have hlen : (bs.take d).length = d := by rw [List.length_take]; omega
  obtain ⟨u, hdone, hwu, hbytes, hframe⟩ := writeCycles_split x fuel a (bs.take d) s hi hw (by omega) (by omega)
    (by rwa [hlen])
  rw [hlen] at hdone
  have hui : u.intrusions = [] := by rw [hframe]; exact hi
  have huc : u.busError .store c.addr c.size = true := by rw [hframe]; exact hc
  have hnow : ((bs.drop d).take c.size).length = c.size := by rw [List.length_take, List.length_drop]; omega
  refine ⟨u.writeFailed c.addr ((bs.drop d).take c.size), ?_, ?_, fun b => ?_⟩
  · have happ := writeCycles_append x (c :: post) (bs.drop d) _ (bs.take d) s
      ((splitCycles_sizes fuel a d (by omega)).trans hlen.symm) hdone
    rw [List.take_append_drop] at happ
    simp only [happ, writeCycles, intrude_nil hui, huc, if_true]
  · have hbefore : onlyAccess s u := by unfold onlyAccess; rw [hframe]; rfl
    exact onlyAccess_trans hbefore (writeFailed_onlyAccess u _ _)
  · obtain ⟨hmixed, hout⟩ := byteAt_writeFailed u c.addr b ((bs.drop d).take c.size) hwu (by omega)
    rw [hnow] at hout
    rw [haddr] at hmixed hout ⊢
    refine ⟨fun hk => ?_, fun hk hk' => ?_, fun hk => ?_⟩
    · rw [hout (by bv_omega), hbytes b, List.getElem?_take, if_pos hk, List.getElem?_eq_getElem (by omega)]
      rfl
    · have hindex : (b - (a + BitVec.ofNat 32 d)).toNat = (b - a).toNat - d := by bv_omega
      rw [hbytes b, List.getElem?_eq_none (by omega), hindex, List.getElem?_take, if_pos (by omega), List.getElem?_drop,
        Nat.add_sub_cancel' hk] at hmixed
      exact hmixed
    · rw [hout (by bv_omega), hbytes b, List.getElem?_eq_none (by omega)]
      rfl

end Sys2Proof.Proofs

/-! Bus errors of integer loads and stores of one operand, and of fetches (60_exceptions.md R664, R665, R673). -/

namespace Sys2Proof.Proofs

open Sys2Proof Sys2Proof.Machine Sys2Proof.Laws

/-! Data accesses. -/

/-- A data access of `s` that left `u` and failed at `ea`: the outcome of the bus error, memory as the access left it, DAR, and what
DSISR tells of the instruction. -/
theorem dataMachineCheck_result (i : Instr) (ea : Word) {s u : State} (hu : onlyAccess s u) (h : s.inDebug = false) :
    ∃ t, dataMachineCheck i ea u = .next t ∧ machineChecks 0 s t ∧ t.mem = u.mem ∧
      (checks s → t.dar = ea ∧ dsisrTells (encode i) t.dsisr ∧ bits t.dsisr 27 5 = bits (encode i) 11 5) := by
  obtain ⟨hcheck, hmem, -, hwritten, -⟩ :=
    machineCheck_endsInBusError 0 ea (dsisrOf (encode i) (bits (encode i) 11 5)) hu h
  refine ⟨_, rfl, hcheck, hmem, fun hc => ?_⟩
  obtain ⟨hdar, hdsisr⟩ := hwritten hc
  have hfields := dsisrOf_fields (encode i) (bits (encode i) 11 5)
  rw [← hdsisr] at hfields
  exact ⟨hdar, hfields⟩

theorem loadInt_busError {i : Instr} {n : Nat} {ext : Dword → Word} {rD : Reg} {update : Option Reg} {ea e : Word}
    {s t : State} (ha : s.leMisaligned ea n = false) (h : s.load ea n = .busError e t) :
    loadInt i n ext rD update ea s = dataMachineCheck i e t := by
  rw [loadInt, if_neg (by simp [ha]), h]

theorem storeInt_busError {i : Instr} {n : Nat} {v : Word} {update : Option Reg} {ea e : Word} {s t : State}
    (ha : s.leMisaligned ea n = false) (h : s.store ea n (v.setWidth 64) = .busError e t) :
    storeInt i n v update ea s = dataMachineCheck i e t := by
  rw [storeInt, if_neg (by simp [ha]), h]

/-! The bytes of a store. -/

theorem byteOf_eq (v : Word) {n : Nat} (hn : n ≤ 3) : ((v.setWidth 64 : Dword) >>> (8 * n)).setWidth 8 = byteOf v (3 - n) := by
  refine BitVec.eq_of_getLsbD_eq fun k hk => ?_
  rw [byteOf, show 3 - (3 - n) = n by omega]
  simp [hk, show 8 * n + k < 64 by omega]

theorem bytesOf_byteOperand (v : Word) : bytesOf 1 (v.setWidth 64) = byteOperand v := by
  simp only [bytesOf, byteOf_eq v (show 0 ≤ 3 by decide)]
  rfl

theorem bytesOf_halfOperand (v : Word) : bytesOf 2 (v.setWidth 64) = halfOperand v := by
  simp only [bytesOf, byteOf_eq v (show 0 ≤ 3 by decide), byteOf_eq v (show 1 ≤ 3 by decide)]
  rfl

theorem bytesOf_wordOperand (v : Word) : bytesOf 4 (v.setWidth 64) = wordOperand v := by
  simp only [bytesOf, byteOf_eq v (show 0 ≤ 3 by decide), byteOf_eq v (show 1 ≤ 3 by decide),
    byteOf_eq v (show 2 ≤ 3 by decide), byteOf_eq v (show 3 ≤ 3 by decide)]
  rfl

theorem halfOperand_reversed (v : Word) :
    halfOperand ((reverseHalf (v.setWidth 16)).setWidth 32) = (halfOperand v).reverse := by
  have hbyte (j k : Nat) (h : j = 2 ∧ k = 3 ∨ j = 3 ∧ k = 2) :
      byteOf ((reverseHalf (v.setWidth 16)).setWidth 32) j = byteOf v k := by
    refine BitVec.eq_of_getLsbD_eq fun m hm => ?_
    simp only [byteOf, reverseHalf, BitVec.getLsbD_extractLsb', BitVec.getLsbD_setWidth, BitVec.getLsbD_append]
    obtain ⟨rfl, rfl⟩ | ⟨rfl, rfl⟩ := h <;> interval_cases m <;> simp
  rw [halfOperand, hbyte 2 3 (by decide), hbyte 3 2 (by decide)]
  rfl

theorem wordOperand_reversed (v : Word) : wordOperand (reverseWord v) = (wordOperand v).reverse := by
  have hbyte (j : Nat) (h : j ≤ 3) : byteOf (reverseWord v) j = byteOf v (3 - j) := by
    refine BitVec.eq_of_getLsbD_eq fun m hm => ?_
    simp only [byteOf, reverseWord, BitVec.getLsbD_extractLsb', BitVec.getLsbD_append]
    interval_cases j <;> interval_cases m <;> simp
  rw [wordOperand, hbyte 0 (by decide), hbyte 1 (by decide), hbyte 2 (by decide), hbyte 3 (by decide)]
  rfl

/-- An integer store of one operand writes the bytes of its form. -/
theorem exec_storeForm_bytes {i : Instr} {s : State} {x : StoreForm} (h : storeForm s i = some x) :
    x.bytes.length ≤ 4 ∧
      ∃ v : Word, exec i s = storeInt i x.bytes.length v x.update x.ea s ∧ bytesOf x.bytes.length (v.setWidth 64) = x.bytes := by
  unfold storeForm at h
  split at h <;> cases h
  case h_1 | h_2 | h_3 | h_4 => exact ⟨(by decide : 1 ≤ 4), _, rfl, bytesOf_byteOperand _⟩
  case h_5 | h_6 | h_7 | h_8 => exact ⟨(by decide : 2 ≤ 4), _, rfl, bytesOf_halfOperand _⟩
  case h_9 | h_10 | h_11 | h_12 => exact ⟨(by decide : 4 ≤ 4), _, rfl, bytesOf_wordOperand _⟩
  case h_13 => exact ⟨(by decide : 2 ≤ 4), _, rfl, (bytesOf_halfOperand _).trans (halfOperand_reversed _)⟩
  case h_14 => exact ⟨(by decide : 4 ≤ 4), _, rfl, (bytesOf_wordOperand _).trans (wordOperand_reversed _)⟩

/-- A store of at most four bytes ends at its first failing cycle. -/
theorem store_firstError {s : State} {ea : Word} {n : Nat} {v : Dword} {c : Cycle} (x : Bool) (hn : n ≤ 4)
    (hi : s.intrusions = []) (hw : Memory.wf s.mem = true) (h : s.firstError .store (s.operandCycles ea n) c) :
    ∃ u, s.store ea n v x = .busError c.ea u ∧ onlyAccess s u ∧ (c.addr - s.busAddress ea n).toNat + c.size ≤ n ∧
      partlyStored (bytesOf n v) (s.busAddress ea n) (c.addr - s.busAddress ea n).toNat c.size s u := by
  obtain ⟨pre, post, hcs, hpre, hc⟩ := h
  obtain ⟨d, rfl, haddr, hd⟩ := operandCycles_before (by omega) hcs
  have hoffset : (c.addr - s.busAddress ea n).toNat = d := by bv_omega
  have hlen : (bytesOf n v).length = n := bytesOf_length n v
  rw [hoffset, State.store, hcs]
  obtain ⟨u, hwrite, honly, hpart⟩ :=
    writeCycles_firstError x (bs := bytesOf n v) post hi hw (by omega) (by omega) haddr (by omega) hpre hc
  exact ⟨u, hwrite, honly, hd, hpart⟩

/-- A store that was partly made, by the offsets of its bytes. -/
theorem partlyStored_offsets {bs : List Byte} {a : Word} {d n : Nat} {s t : State} (h : partlyStored bs a d n s t)
    (hd : d + n ≤ bs.length) (hl : bs.length < 2 ^ 32) :
    (∀ k, k < d → some (t.byteAt (a + BitVec.ofNat 32 k)) = bs[k]?) ∧
    (∀ k, d ≤ k → k < d + n →
      t.byteAt (a + BitVec.ofNat 32 k) = s.byteAt (a + BitVec.ofNat 32 k) ∨ some (t.byteAt (a + BitVec.ofNat 32 k)) = bs[k]?) ∧
    (∀ k, d + n ≤ k → k < bs.length → t.byteAt (a + BitVec.ofNat 32 k) = s.byteAt (a + BitVec.ofNat 32 k)) ∧
    sameMemoryBut s t a bs.length := by
  have hat (k : Nat) (hk : k < 2 ^ 32) : (a + BitVec.ofNat 32 k - a).toNat = k := by bv_omega
  refine ⟨fun k hk => ?_, fun k hk hk' => ?_, fun k hk hk' => ?_, fun b hb => ?_⟩
  · obtain ⟨hbefore, -, -⟩ := h (a + BitVec.ofNat 32 k)
    rw [hat k (by omega)] at hbefore
    exact hbefore hk
  · obtain ⟨-, hfailed, -⟩ := h (a + BitVec.ofNat 32 k)
    rw [hat k (by omega)] at hfailed
    exact hfailed hk hk'
  · obtain ⟨-, -, hafter⟩ := h (a + BitVec.ofNat 32 k)
    rw [hat k (by omega)] at hafter
    exact hafter hk
  · obtain ⟨-, -, hafter⟩ := h b
    exact hafter (hd.trans hb)

theorem partlyStored_congr {bs : List Byte} {a : Word} {d n : Nat} {s t u : State} (hmem : u.mem = t.mem)
    (h : partlyStored bs a d n s t) : partlyStored bs a d n s u := by
  intro b
  rw [byteAt_congr hmem b]
  exact h b

/-! Fetches. -/

/-- The step of an undisturbed machine is the instruction at CIA. -/
theorem step_undisturbed {s : State} (h : s.undisturbed) : step s = settled s.instruction := by
  obtain ⟨hevents, -, hcut, hstop, hreset, hdbg, hinbox, hnmi, hmeb, hirq, hdec⟩ := h
  have hdeliver : s.deliverEvents = s := by rw [State.deliverEvents, hevents]
  have hdrain : s.drainPort = s := by
    rw [State.drainPort, hinbox, List.foldl_nil, ← hinbox]
  simp [step, State.stepOnce, hdeliver, hstop, hreset, hcut, State.proceed, hdbg, hdrain, State.runStep, hnmi, hmeb, hirq, hdec]

/-- With the cache disabled a fetch of an address with a bus error changes nothing. -/
theorem fetchAt_busError {s : State} {a : Word} (hc : s.cacheOn = false) (hb : s.busError .fetch a 4 = true) :
    s.fetchAt a = .busError s := by
  simp [State.fetchAt, State.fetchThrough, hc, hb]

theorem instruction_fetchError {s : State} (hc : s.cacheOn = false) (hb : s.busError .fetch (fetchAddr s.msr s.pc) 4 = true) :
    s.instruction = .next s.fresh.fetchMachineCheck := by
  rw [State.instruction, fetchAt_busError (s := s.fresh) hc hb]

/-- The machine check of a fetch writes neither DAR nor DSISR. -/
theorem fetchMachineCheck_fresh (s : State) :
    s.fresh.fetchMachineCheck = s.fresh.machineCheck 0x4000 (withFault s.dar s.dsisr) := rfl

/-- Settles O26: an access ends at its first failing cycle, with the bytes before it stored, and every bus error ends as
`machineCheck_endsInBusError` says. -/
theorem busErrorResult : Obligations.BusErrorResult := by
  refine ⟨?load, ?store, ?fetch⟩
  case load =>
    intro i s x c hform hdbg hi ha herr
    obtain ⟨ext, hx⟩ := exec_loadForm hform
    obtain ⟨l, hl⟩ := load_firstError true hi herr
    have hu : onlyAccess s { s with lbus := l } := rfl
    obtain ⟨t, ht, hcheck, hmem, hfault⟩ := dataMachineCheck_result i c.ea hu hdbg
    exact ⟨t, hx.trans ((loadInt_busError ha hl).trans ht), hcheck, sameMemory_of_mem hmem, hfault⟩
  case store =>
    intro i s x c hform hw hdbg hi ha herr a d
    obtain ⟨hlen, v, hx, hbytes⟩ := exec_storeForm_bytes hform
    obtain ⟨u, hstore, hu, hd, hpart⟩ := store_firstError (v := v.setWidth 64) true hlen hi hw herr
    obtain ⟨t, ht, hcheck, hmem, hfault⟩ := dataMachineCheck_result i c.ea hu hdbg
    rw [hbytes] at hpart
    exact ⟨t, hx.trans ((storeInt_busError ha hstore).trans ht), hcheck, hfault,
      partlyStored_offsets (partlyStored_congr hmem hpart) hd (by omega)⟩
  case fetch =>
    intro s hs hc hb
    have hstep := step_undisturbed hs
    obtain ⟨-, hi, -, -, -, hdbg, -⟩ := hs
    have hu : onlyAccess s s.fresh := rfl
    obtain ⟨hcheck, hmem, hintr, hwritten, hkept⟩ := machineCheck_endsInBusError 0x4000 s.dar s.dsisr hu hdbg
    have hfault := (Classical.em (checks s)).elim hwritten hkept
    refine ⟨_, hstep.trans ?_, hcheck, sameMemory_of_mem hmem, hfault⟩
    rw [instruction_fetchError hc hb, fetchMachineCheck_fresh, settled, settle_nil (hintr.trans hi)]

end Sys2Proof.Proofs

/-! Moves to special registers with an effect of their own: MSR[EE] and MSR[RI], the time base, development support, DPDR, ICCST
(49_processor_control_sync_cache.md R590, R591; 61_development_support.md R743, R746; 62_debug_mode_and_port.md R771). -/

namespace Sys2Proof.Proofs

open Sys2Proof Sys2Proof.Machine Sys2Proof.Laws

section
variable {s : State}

/-- At the supervisor level a move to a register that can be written performs the write. -/
theorem exec_mtspr {n : BitVec 10} (rS : Reg) (hw : sprWritable n = true) (hl : msrPR s.msr = false)
    (he : s.platform.sprErrors = []) : exec (.mtspr n rS) s = .next (s.writeSpr n (s.r rS)).advance := by
  change execMtspr n rS s = _
  rw [execMtspr, sprAccess_allowed _ hw (sprLevel_allows (.inl hl)) (sprError_none _ he)]
  rfl

/-! Development support (R771, R775 to R779). -/

theorem sprWritable_of_development {n : BitVec 10} (h : sprDevelopment n = true) : sprWritable n = true := by
  simp [sprWritable, sprReadWrite, h]

theorem developmentLocked_iff (s : State) : s.developmentLocked = true ↔ s.locked := by
  simp [State.developmentLocked, State.locked]

theorem writeSpr_locked {n : BitVec 10} (v : Word) (hn : sprDevelopment n = true) (h : s.locked) : s.writeSpr n v = s := by
  rw [State.writeSpr, if_pos hn, if_pos ((developmentLocked_iff s).mpr h)]

theorem writeSpr_unlocked {n : BitVec 10} (v : Word) (hn : sprDevelopment n = true) (h : ¬s.locked) :
    s.writeSpr n v = s.writeDevelopment n v := by
  rw [State.writeSpr, if_pos hn, if_neg ((developmentLocked_iff s).not.mpr h)]

/-- A write of ECR is ignored, whether the registers are locked or not (R780). -/
theorem writeSpr_ecr (s : State) (v : Word) : s.writeSpr 148 v = s := by
  by_cases h : s.locked
  · exact writeSpr_locked v (by decide) h
  · exact writeSpr_unlocked v (by decide) h

/-- A write of a counter stores CNTC, and changes nothing but the counter and the count of free values (R743, R778). -/
theorem writeCountA_frame (s : State) (v : Word) :
    bits (s.writeCountA v).countA 16 16 = bits v 16 16 &&& 3#16 ∧
      s.writeCountA v = { s with countA := (s.writeCountA v).countA, freeCount := (s.writeCountA v).freeCount } := by
  obtain ⟨hv, hs⟩ := selfCount_frame s (s.countsOwnAccess s.countA 0) (v &&& countMask)
  exact ⟨hv.trans BitVec.extractLsb'_and, congrArg (fun t : State => { t with countA := (s.writeCountA v).countA }) hs⟩

theorem writeCountB_frame (s : State) (v : Word) :
    bits (s.writeCountB v).countB 16 16 = bits v 16 16 &&& 3#16 ∧
      s.writeCountB v = { s with countB := (s.writeCountB v).countB, freeCount := (s.writeCountB v).freeCount } := by
  obtain ⟨hv, hs⟩ := selfCount_frame s (s.countsOwnAccess s.countB 1) (v &&& countMask)
  exact ⟨hv.trans BitVec.extractLsb'_and, congrArg (fun t : State => { t with countB := (s.writeCountB v).countB }) hs⟩

/-- A write of a counter that does not count it stores CNTV too. -/
theorem writeCountA_plain (v : Word) (h : ¬s.countsItself s.countA 0) :
    s.writeCountA v = { s with countA := v &&& countMask } := by
  rw [← countsOwnAccess_iff, Bool.not_eq_true] at h
  simp only [State.writeCountA, h, selfCount_off]

theorem writeCountB_plain (v : Word) (h : ¬s.countsItself s.countB 1) :
    s.writeCountB v = { s with countB := v &&& countMask } := by
  rw [← countsOwnAccess_iff, Bool.not_eq_true] at h
  simp only [State.writeCountB, h, selfCount_off]

/-! DPDR (R752, R771). -/

theorem writeDpdr_outsideDebug (v : Word) (h : s.inDebug = false) : s.writeDpdr v = s := by
  simp [State.writeDpdr, h]

theorem writeDpdr_inDebug (v : Word) (h : s.inDebug = true) :
    s.writeDpdr v = { s with port := { s.port with data := some v } } := by
  simp [State.writeDpdr, h]

/-! Enable and disable (20_memory.md R178, R179). -/

theorem prefetchedStale_nil (h : s.stale = []) : s.prefetchedStale.stale = [] := by
  simp [State.prefetchedStale, State.remark, h]

end

/-- Settles O55: `writeSpr` of each register, by the lemma about its write. -/
theorem moveToSprEffects : Obligations.MoveToSprEffects := by
  intro rS s hl he
  have hx {n : BitVec 10} (hw : sprWritable n = true) := exec_mtspr (s := s) rS hw hl he
  have hdev {n : BitVec 10} (hn : sprDevelopment n = true) := hx (sprWritable_of_development hn)
  refine ⟨hx (n := 80) (by decide), hx (n := 81) (by decide), hx (n := 82) (by decide), hx (n := 284) (by decide),
    hx (n := 285) (by decide), ?locked, ?dpdrIgnored, ?enable, ?disable, ?dpdr, ?ecr, ?unlocked⟩
  case locked =>
    intro n hn hlock
    rw [hdev hn, writeSpr_locked _ hn hlock]
    rfl
  case dpdrIgnored =>
    intro h
    exact (hx (n := 630) (by decide)).trans (congrArg nextInstr (writeDpdr_outsideDebug _ h))
  case enable =>
    intro h
    refine ⟨_, exec_mtspr_iccst rS hl he, ?_⟩
    rw [cacheCommand_enable h]
    exact ⟨bit_setBit _ 0 0 true (by decide) (by decide), rfl⟩
  case disable =>
    intro h
    refine ⟨_, exec_mtspr_iccst rS hl he, ?_⟩
    rw [cacheCommand_disable h]
    exact ⟨bit_setBit _ 0 0 false (by decide) (by decide), prefetchedStale_nil (s := withCommand s (s.r rS)), rfl⟩
  case dpdr =>
    intro h
    exact (hx (n := 630) (by decide)).trans (congrArg nextInstr (writeDpdr_inDebug _ h))
  case ecr =>
    rw [hdev (n := 148) (by decide), writeSpr_ecr]
    rfl
  case unlocked =>
    intro hfree
    have hwrite {n : BitVec 10} (hn : sprDevelopment n = true) :
        exec (.mtspr n rS) s = .next (s.writeDevelopment n (s.r rS)).advance := by
      rw [hdev hn, writeSpr_unlocked _ hn hfree]
    obtain ⟨hcntcA, hframeA⟩ := writeCountA_frame s (s.r rS)
    obtain ⟨hcntcB, hframeB⟩ := writeCountB_frame s (s.r rS)
    refine ⟨hwrite (n := 157) (by decide), hwrite (n := 158) (by decide), fun h => ?_, fun h => ?_,
      ⟨_, hwrite (n := 150) (by decide), hcntcA, congrArg State.advance hframeA⟩,
      ⟨_, hwrite (n := 151) (by decide), hcntcB, congrArg State.advance hframeB⟩⟩
    · exact (hwrite (n := 150) (by decide)).trans (congrArg nextInstr (writeCountA_plain _ h))
    · exact (hwrite (n := 151) (by decide)).trans (congrArg nextInstr (writeCountB_plain _ h))

end Sys2Proof.Proofs

/-! The breakpoint counters on one instruction (61_development_support.md R743). -/

namespace Sys2Proof.Proofs

open Sys2Proof Sys2Proof.Machine Sys2Proof.Laws

/-- One of the four: I-bus watchpoints, byte lanes. -/
theorem exists_lt_four (p : Nat → Prop) : (∃ k, k < 4 ∧ p k) ↔ ((p 0 ∨ p 1) ∨ p 2) ∨ p 3 := by
  constructor
  · rintro ⟨k, hk, hp⟩
    interval_cases k <;> tauto
  · rintro (((hp | hp) | hp) | hp)
    exacts [⟨0, by decide, hp⟩, ⟨1, by decide, hp⟩, ⟨2, by decide, hp⟩, ⟨3, by decide, hp⟩]

/-- The counter counts the watchpoint of the instruction, and that takes it from 1 to 0. -/
def expires (s : State) (counter : Word) (source : BitVec 2) (watch : Prop) : Prop :=
  s.counts counter source watch ∧ bits counter 0 16 = 1#16

section
variable {s : State} {c : Word} {source : BitVec 2} {watch : Bool} {W : Prop}

theorem countDown_of_counts (hW : watch = true ↔ W) (h : s.counts c source W) :
    countDown source watch s.brkUnmasked c = (c - 0x00010000#32, bits c 0 16 == 1) := by
  obtain ⟨hsource, hwatch, hopen, hleft⟩ := h
  exact if_pos ⟨hsource, hW.mpr hwatch, (brkUnmasked_iff s).mpr hopen, hleft⟩

theorem countDown_of_not_counts (hW : watch = true ↔ W) (h : ¬s.counts c source W) :
    countDown source watch s.brkUnmasked c = (c, false) := by
  refine if_neg fun ⟨hsource, hwatch, hopen, hleft⟩ => h ⟨hsource, hW.mp hwatch, ?_, hleft⟩
  exact (brkUnmasked_iff s).mp hopen

theorem countedIf_countDown (hW : watch = true ↔ W) :
    countedIf (s.counts c source W) c (countDown source watch s.brkUnmasked c).1 :=
  ⟨fun h => congrArg Prod.fst (countDown_of_counts hW h), fun h => congrArg Prod.fst (countDown_of_not_counts hW h)⟩

theorem countDown_expires_iff (hW : watch = true ↔ W) :
    (countDown source watch s.brkUnmasked c).2 = true ↔ expires s c source W := by
  by_cases h : s.counts c source W
  · simp [countDown_of_counts hW h, expires, h]
  · simp [countDown_of_not_counts hW h, expires, h]

/-- What counting gives a counter is determined. -/
theorem countedIf_unique {C : Prop} {old new new' : Word} (h : countedIf C old new) (h' : countedIf C old new') :
    new = new' := by
  by_cases hC : C
  · rw [h.1 hC, h'.1 hC]
  · rw [h.2 hC, h'.2 hC]

/-- A counter that is adjusted back unless it expires. -/
theorem countedIf_adjustedBack (hW : watch = true ↔ W) :
    let d := countDown source watch s.brkUnmasked c
    countedIf (expires s c source W) c (if d.2 then d.1 else c) := by
  have hexp := countDown_expires_iff (s := s) (c := c) (source := source) hW
  refine ⟨fun h => ?_, fun h => if_neg (hexp.not.mpr h)⟩
  exact (if_pos (hexp.mpr h)).trans ((countedIf_countDown hW).1 h.1)

end

end Sys2Proof.Proofs

/-! The I-bus breakpoint (61_development_support.md R742 to R746; 60_exceptions.md R697). -/

namespace Sys2Proof.Proofs

open Sys2Proof Sys2Proof.Machine Sys2Proof.Laws

/-- The state with ICTRL and the counters as given. -/
def withCounters (s : State) (ictrl countA countB : Word) : State :=
  { s with ictrl := ictrl, countA := countA, countB := countB }

/-- The counters of the I-bus watchpoints 0 and 1 expire at the instruction at CIA. -/
def expiresA (s : State) : Prop := expires s s.countA 1#2 (s.watchesInstr 0)
def expiresB (s : State) : Prop := expires s s.countB 1#2 (s.watchesInstr 1)

/-- The instruction at CIA meets a breakpoint: a match that ICTRL[IIFM] does not have ignored, or a counter that expires. -/
def breaksInstr (s : State) : Prop := (s.matchesInstr ∧ bit s.ictrl 28 = false) ∨ expiresA s ∨ expiresB s

section
variable {s : State}

theorem iWatch_iff_watchesInstr (h : s.inDebug = false) (k : Nat) : s.iWatch k = true ↔ s.watchesInstr k := by
  simp [iWatch_iff, h]

/-- The trap enables of ICTRL and TECR (R746). -/
theorem iTrapEnabled_iff (s : State) (k : Nat) :
    s.iTrapEnabled k = true ↔ bit s.ictrl (20 + k) = true ∨ s.port.tecr.getLsbD (8 - k) = true := by
  simp [State.iTrapEnabled, Port.tecrBit]

theorem iMatch_iff (h : s.inDebug = false) : s.iMatch = true ↔ s.matchesInstr := by
  simp only [State.iMatch, State.matchesInstr, exists_lt_four, Bool.and_eq_true, Bool.or_eq_true, brkUnmasked_iff,
    iWatch_iff_watchesInstr h, iTrapEnabled_iff]

/-- ICTRL once a match was ignored: IIFM is cleared (R745). -/
def ictrlAfter (s : State) : Word := if s.iMatch && bit s.ictrl 28 then setBit s.ictrl 28 false else s.ictrl

/-- The two counters on the instruction at CIA. -/
def countDownA (s : State) : Word × Bool := countDown countsI (s.iWatch 0) s.brkUnmasked s.countA
def countDownB (s : State) : Word × Bool := countDown countsI (s.iWatch 1) s.brkUnmasked s.countB

/-- The model's test for the breakpoint. -/
def iBreaks (s : State) : Bool :=
  (s.iMatch && !(s.iMatch && bit s.ictrl 28)) || (countDownA s).2 || (countDownB s).2

theorem iBreakpoint_eq (s : State) :
    s.iBreakpoint =
      if iBreaks s then
        (true, withCounters s (ictrlAfter s) (if (countDownA s).2 then (countDownA s).1 else s.countA)
          (if (countDownB s).2 then (countDownB s).1 else s.countB))
      else (false, withCounters s (ictrlAfter s) (countDownA s).1 (countDownB s).1) := by
  unfold State.iBreakpoint ictrlAfter iBreaks
  cases s.iMatch && bit s.ictrl 28 <;> rfl

theorem iBreaks_iff (h : s.inDebug = false) : iBreaks s = true ↔ breaksInstr s := by
  have hA : (countDownA s).2 = true ↔ expiresA s := countDown_expires_iff (iWatch_iff_watchesInstr h 0)
  have hB : (countDownB s).2 = true ↔ expiresB s := countDown_expires_iff (iWatch_iff_watchesInstr h 1)
  simp only [iBreaks, Bool.or_eq_true, hA, hB, breaksInstr, ← iMatch_iff h]
  cases s.iMatch <;> simp [or_assoc]

/-- A breakpoint: a counter that expires is decremented, the other is adjusted back. -/
theorem iBreakpoint_breaks (h : s.inDebug = false) (hb : breaksInstr s) :
    ∃ a b, s.iBreakpoint = (true, withCounters s (ictrlAfter s) a b) ∧
      countedIf (expiresA s) s.countA a ∧ countedIf (expiresB s) s.countB b := by
  refine ⟨_, _, (iBreakpoint_eq s).trans (if_pos ((iBreaks_iff h).mpr hb)), ?_, ?_⟩
  · exact countedIf_adjustedBack (iWatch_iff_watchesInstr h 0)
  · exact countedIf_adjustedBack (iWatch_iff_watchesInstr h 1)

/-- No breakpoint: the watchpoints are counted, and of ICTRL an ignored match clears IIFM. -/
theorem iBreakpoint_passes (h : s.inDebug = false) (hb : ¬breaksInstr s) :
    ∃ a b, s.iBreakpoint = (false, withCounters s (ictrlAfter s) a b) ∧
      countedIf (s.counts s.countA 1#2 (s.watchesInstr 0)) s.countA a ∧
      countedIf (s.counts s.countB 1#2 (s.watchesInstr 1)) s.countB b := by
  refine ⟨_, _, (iBreakpoint_eq s).trans (if_neg ((iBreaks_iff h).not.mpr hb)), ?_, ?_⟩
  · exact countedIf_countDown (iWatch_iff_watchesInstr h 0)
  · exact countedIf_countDown (iWatch_iff_watchesInstr h 1)

/-- Without a breakpoint a match is one that IIFM has ignored. -/
theorem ictrlAfter_of_matches (h : s.inDebug = false) (hb : ¬breaksInstr s) (hm : s.matchesInstr) :
    ictrlAfter s = setBit s.ictrl 28 false := by
  have h28 : bit s.ictrl 28 = true := Bool.eq_true_of_not_eq_false fun hf => hb (.inl ⟨hm, hf⟩)
  simp [ictrlAfter, (iMatch_iff h).mpr hm, h28]

theorem ictrlAfter_of_not_matches (h : s.inDebug = false) (hm : ¬s.matchesInstr) : ictrlAfter s = s.ictrl := by
  have hoff : s.iMatch = false := Bool.eq_false_of_not_eq_true ((iMatch_iff h).not.mpr hm)
  simp [ictrlAfter, hoff]

end

end Sys2Proof.Proofs

/-! The step around the instruction at CIA (60_exceptions.md R631, R646): fetch, I-bus breakpoint, what follows. -/

namespace Sys2Proof.Proofs

open Sys2Proof Sys2Proof.Machine Sys2Proof.Laws

section
variable {s : State}

/-- An undisturbed machine that fetches `w` runs it. -/
theorem step_runWord {w : Word} (h : s.undisturbed) (hf : s.fetchesWord w) : step s = settled (s.fresh.runWord w) := by
  obtain ⟨hcache, hstale, hbus, hw⟩ := hf
  have hfetch := fetchAt_memory (s := s.fresh) hcache hstale hbus
  rw [step_undisturbed h, State.instruction, hfetch, ← hw]
  rfl

theorem runWord_breakpoint {u : State} (w : Word) (h : s.iBreakpoint = (true, u)) :
    s.runWord w = .next (u.take .instrBreakpoint s.pc 0) := by
  simp [State.runWord, h]

theorem runWord_completes {w : Word} {i : Instr} {m t : State} (h : s.iBreakpoint = (false, m)) (hd : decode w = .ok i)
    (hx : exec i m = .next t) : s.runWord w = .next (t.afterInstr s i s.iWatch) := by
  simp [State.runWord, h, hd, hx]

/-- An entry leaves the counters and the writes of other bus masters that are to come. -/
theorem take_counters (x : Exc) (srr0 : Word) (info : BitVec 16) (h : s.inDebug = false) :
    (s.take x srr0 info).countA = s.countA ∧ (s.take x srr0 info).countB = s.countB ∧
      (s.take x srr0 info).intrusions = s.intrusions := by
  unfold State.take
  rw [takeVia_eq s x x.causeBit srr0 info h]
  exact ⟨rfl, rfl, rfl⟩

/-- Nothing but ICTRL, the counters, BAR and the records of the model differs. -/
def onlyBreakpoint (s v : State) : Prop :=
  v = { s with
    ictrl := v.ictrl, countA := v.countA, countB := v.countB, bar := v.bar, lbus := v.lbus, excTaken := v.excTaken }

/-- An entry reads none of these. -/
theorem enters_of_onlyBreakpoint {x : Exc} {srr0 : Word} {info : BitVec 16} {v t : State} (h : onlyBreakpoint s v)
    (hv : enters x srr0 info v t) : enters x srr0 info s t := by
  unfold onlyBreakpoint at h
  generalize v.ictrl = i, v.countA = a, v.countB = b, v.bar = r, v.lbus = l, v.excTaken = e at h
  subst h
  obtain ⟨hregs, hat, hmem⟩ := hv
  exact ⟨hregs, hat, hmem⟩

theorem settled_next {t : State} (h : t.intrusions = []) : settled (.next t) = .next t := by
  rw [settled, settle_nil h]

theorem traced_off {msr : Word} (i : Instr) (hse : msrSE msr = false) (hbe : msrBE msr = false) : traced msr i = false := by
  simp [traced, hse, hbe]

/-! The data breakpoint (61_development_support.md R738, R743). -/

/-- The counters after an instruction whose data cycles they may count. -/
def dataCounted (t : State) (iw : Nat → Bool) : State := (t.count countsL (t.lWatch iw 0) (t.lWatch iw 1)).2.2

/-- L-bus watchpoint `x` breaks, if it is asserted: by a trap enable or by its counter `c`. -/
def trapsData (t : State) (iw : Nat → Bool) (x : Nat) (c : Word) : Bool :=
  (t.brkUnmasked && t.lWatch iw x && t.lTrapEnabled x) || (countDown countsL (t.lWatch iw x) t.brkUnmasked c).2

/-- The cycle meets a watchpoint that breaks. -/
def dataBreaks (t : State) (iw : Nat → Bool) (c : BusCycle) : Bool :=
  (trapsData t iw 0 t.countA && t.lWatchCycle iw 0 c) || (trapsData t iw 1 t.countB && t.lWatchCycle iw 1 c)

theorem lBreakpoint_of_find_none {t : State} {iw : Nat → Bool} (next : Word)
    (h : t.lbus.find? (dataBreaks t iw) = none) : t.lBreakpoint iw next = (false, dataCounted t iw) := by
  change (match t.lbus.find? (dataBreaks t iw) with | some _ => _ | none => _) = _
  rw [h]
  rfl

theorem lBreakpoint_of_find_some {t : State} {iw : Nat → Bool} {c : BusCycle} (next : Word)
    (h : t.lbus.find? (dataBreaks t iw) = some c) :
    t.lBreakpoint iw next =
      (true, { dataCounted t iw with bar := if t.inDebug then t.bar else c.ea }.take .dataBreakpoint next 0) := by
  change (match t.lbus.find? (dataBreaks t iw) with | some _ => _ | none => _) = _
  rw [h]
  rfl

/-! What follows an instruction (R691; 61_development_support.md R743). -/

/-- The state that enters the data breakpoint for the cycle `c`. -/
def dataStopped (t : State) (iw : Nat → Bool) (c : BusCycle) : State := { dataCounted t iw with bar := c.ea }

theorem afterInstr_dataBreakpoint {t : State} {iw : Nat → Bool} {c : BusCycle} (before : State) (i : Instr)
    (he : t.excTaken = none) (hd : t.inDebug = false) (h : t.lbus.find? (dataBreaks t iw) = some c) :
    t.afterInstr before i iw = (dataStopped t iw c).take .dataBreakpoint (before.pc + 4) 0 := by
  have hbreak : t.lBreakpoint iw (before.pc + 4) =
      (true, (dataStopped t iw c).take .dataBreakpoint (before.pc + 4) 0) := by
    rw [lBreakpoint_of_find_some _ h, hd]
    rfl
  simp only [State.afterInstr, he, hbreak, if_true]

/-- Without a data breakpoint the trace exception may follow (R691). -/
theorem afterInstr_noDataBreakpoint {t : State} {iw : Nat → Bool} (before : State) (i : Instr) (he : t.excTaken = none)
    (h : t.lbus.find? (dataBreaks t iw) = none) :
    t.afterInstr before i iw =
      if traced before.msr i then (dataCounted t iw).take .trace (dataCounted t iw).pc 0 else dataCounted t iw := by
  simp [State.afterInstr, he, lBreakpoint_of_find_none _ h]

/-- The counters are those after counting, whatever follows. -/
theorem afterInstr_counters {t : State} {iw : Nat → Bool} (before : State) (i : Instr) (he : t.excTaken = none)
    (hd : t.inDebug = false) :
    let u := t.afterInstr before i iw
    u.countA = (dataCounted t iw).countA ∧ u.countB = (dataCounted t iw).countB ∧ u.intrusions = t.intrusions := by
  intro u
  cases h : t.lbus.find? (dataBreaks t iw) with
  | some c =>
    have hu : u = _ := afterInstr_dataBreakpoint before i he hd h
    rw [hu]
    exact take_counters (s := dataStopped t iw c) _ _ _ hd
  | none =>
    have hu : u = _ := afterInstr_noDataBreakpoint before i he h
    rw [hu]
    split
    · exact take_counters (s := dataCounted t iw) _ _ _ hd
    · exact ⟨rfl, rfl, rfl⟩

/-- The data breakpoint itself writes BAR, its entry does not (R655). -/
theorem take_dataBreakpoint_bar (srr0 : Word) (info : BitVec 16) (h : s.inDebug = false) :
    (s.take .dataBreakpoint srr0 info).bar = s.bar := by
  simp only [State.take, State.takeVia, h, Bool.false_eq_true, if_false, flushQueue_bar]
  rw [enterHandler_eq]
  simp [State.entryBar]

/-- With both L-bus watchpoints disabled nothing is counted and no data breakpoint is met. -/
theorem lBreakpoint_disabled {t : State} (iw : Nat → Bool) (next : Word) (h0 : bit t.lctrl2 0 = false)
    (h1 : bit t.lctrl2 10 = false) : t.lBreakpoint iw next = (false, t) := by
  have hw0 (c : BusCycle) : t.lWatchCycle iw 0 c = false := by simp [State.lWatchCycle, h0]
  have hw1 (c : BusCycle) : t.lWatchCycle iw 1 c = false := by simp [State.lWatchCycle, h1]
  have hl0 : t.lWatch iw 0 = false := by simp [State.lWatch, hw0]
  have hl1 : t.lWatch iw 1 = false := by simp [State.lWatch, hw1]
  have hcounted : dataCounted t iw = t := by
    rw [dataCounted, hl0, hl1]
    simp [State.count, countDown]
  rw [lBreakpoint_of_find_none next (List.find?_eq_none.mpr fun c _ => ?_), hcounted]
  simp [dataBreaks, hw0, hw1]

/-- After an instruction that no data breakpoint and no trace follows: one of class Before has counted nothing. -/
theorem afterInstr_plain {t : State} (i : Instr) (iw : Nat → Bool) (h0 : bit t.lctrl2 0 = false)
    (h1 : bit t.lctrl2 10 = false) (htr : traced s.msr i = false) :
    t.afterInstr s i iw =
      if t.excTaken = some .before then { t with countA := s.countA, countB := s.countB } else t := by
  match hexc : t.excTaken with
  | some .before => simp [State.afterInstr, State.uncount, hexc]
  | some .after => simp [State.afterInstr, hexc]
  | none => simp [State.afterInstr, hexc, lBreakpoint_disabled iw _ h0 h1, htr]

end

end Sys2Proof.Proofs

/-! The I-bus breakpoint and the instruction where none is taken (61_development_support.md R742 to R746). -/

namespace Sys2Proof.Proofs

open Sys2Proof Sys2Proof.Machine Sys2Proof.Laws

/-- Settles O7: `iBreakpoint` answers a breakpoint exactly when the statement names one, and otherwise leaves the one state that the
statement describes, in which the instruction runs. -/
theorem instructionBreakpointResult : Obligations.InstructionBreakpointResult := by
  intro s w hs hf countsA countsB _ _ breaks
  have hstep := step_runWord hs hf
  obtain ⟨-, hintr, -, -, -, hdbg, -⟩ := hs
  have hdbg' : s.fresh.inDebug = false := hdbg
  refine ⟨fun hb => ?breakpoint, fun hb i m t hdec hm hmatch hnomatch hA hB hx h0 h1 hi hse hbe => ?runs⟩
  case breakpoint =>
    obtain ⟨a, b, hbreak, ha, hb⟩ := iBreakpoint_breaks hdbg' hb
    let u := withCounters s.fresh (ictrlAfter s.fresh) a b
    have hu : u.inDebug = false := hdbg
    obtain ⟨hcountA, hcountB, hui⟩ := take_counters .instrBreakpoint s.pc 0 hu
    have honly : onlyBreakpoint s u := rfl
    have henters := enters_of_onlyBreakpoint honly (take_enters .instrBreakpoint s.pc 0 hu)
    refine ⟨u.take .instrBreakpoint s.pc 0, ?_, henters, ?_, ?_⟩
    · rw [hstep, runWord_breakpoint w hbreak]
      exact settled_next (hui.trans hintr)
    · rw [hcountA]
      exact ha
    · rw [hcountB]
      exact hb
  case runs =>
    obtain ⟨a, b, hpass, ha, hb'⟩ := iBreakpoint_passes hdbg' hb
    have hictrl : m.ictrl = ictrlAfter s.fresh := by
      by_cases hms : s.matchesInstr
      · exact (hmatch hms).trans (ictrlAfter_of_matches hdbg' hb hms).symm
      · exact (hnomatch hms).trans (ictrlAfter_of_not_matches (s := s.fresh) hdbg' hms).symm
    have hmeq : m = withCounters s.fresh (ictrlAfter s.fresh) a b := by
      rw [hm, hictrl, countedIf_unique hA ha, countedIf_unique hB hb']
      rfl
    rw [hmeq] at hx
    rw [hstep, runWord_completes hpass hdec hx, afterInstr_plain (s := s.fresh) i _ h0 h1 (traced_off i hse hbe)]
    refine settled_next ?_
    split <;> exact hi

end Sys2Proof.Proofs

/-! L-bus watchpoints: what the comparators see of a data cycle (61_development_support.md R736 to R739). -/

namespace Sys2Proof.Proofs

open Sys2Proof Sys2Proof.Machine Sys2Proof.Laws

/-! Comparators E and F: the address in units of the cycle (R736). -/

theorem and_wordMask (v : Word) : v &&& 0xFFFFFFFC#32 = v >>> 2 <<< 2 := by
  apply eq_of_bit
  intro k hk
  interval_cases k <;> simp [bit]

theorem and_halfMask (v : Word) : v &&& 0xFFFFFFFE#32 = v >>> 1 <<< 1 := by
  apply eq_of_bit
  intro k hk
  interval_cases k <;> simp [bit]

/-- The bits within the transfer are masked. -/
theorem toNat_and_sizeMask (c : BusCycle) (v : Word) : (v &&& sizeMask c.size).toNat = v.toNat / c.unit * c.unit := by
  have hv := v.isLt
  unfold sizeMask BusCycle.unit
  split_ifs
  · rw [and_wordMask, BitVec.toNat_shiftLeft, BitVec.toNat_ushiftRight, Nat.shiftRight_eq_div_pow, Nat.shiftLeft_eq]
    omega
  · rw [and_halfMask, BitVec.toNat_shiftLeft, BitVec.toNat_ushiftRight, Nat.shiftRight_eq_div_pow, Nat.shiftLeft_eq]
    omega
  · rw [show 0xFFFFFFFF#32 = BitVec.allOnes 32 from rfl, BitVec.and_allOnes]
    omega

theorem unit_pos (c : BusCycle) : 0 < c.unit := by
  unfold BusCycle.unit
  split_ifs <;> decide

/-- Comparing multiples of one unit compares the factors. -/
theorem comparesAs_mul (ct : BitVec 3) (v w : Nat) {u : Nat} (hu : 0 < u) :
    comparesAs ct ((v * u : ℕ) : Int) ((w * u : ℕ) : Int) ↔ comparesAs ct (v : ℕ) (w : ℕ) := by
  simp only [comparesAs, ne_eq, Nat.cast_inj, Nat.cast_lt, Nat.mul_lt_mul_right hu, Nat.mul_left_inj hu.ne']

/-- The read/write selection: 2 reads, 3 writes, others both. -/
theorem readWrite_iff (rw : BitVec 2) (write : Bool) :
    (if rw = 2#2 then !write else if rw = 3#2 then write else true) = true ↔
      (rw = 2#2 → write = false) ∧ (rw = 3#2 → write = true) := by
  split_ifs with h2 h3 <;> simp [*]

theorem busCycle_addressEvent_iff (c : BusCycle) (ct : BitVec 3) (rw : BitVec 2) (cmp : Word) :
    c.addressEvent ct rw cmp = true ↔
      comparesAs ct (c.addr.toNat / c.unit : ℕ) (cmp.toNat / c.unit : ℕ) ∧
        (rw = 2#2 → c.write = false) ∧ (rw = 3#2 → c.write = true) := by
  rw [BusCycle.addressEvent, Bool.and_eq_true, readWrite_iff, compareEvent_iff, toNat_and_sizeMask, toNat_and_sizeMask,
    comparesAs_mul _ _ _ (unit_pos c)]

/-- The four selections of a condition on two comparators. -/
theorem selected_iff (sel : BitVec 2) (a b both one : Prop) :
    (if sel = 0#2 then a else if sel = 1#2 then b else if sel = 2#2 then both else one) ↔
      (sel = 0#2 ∧ a) ∨ (sel = 1#2 ∧ b) ∨ (sel = 2#2 ∧ both) ∨ (sel = 3#2 ∧ one) := by
  obtain rfl | rfl | rfl | rfl : sel = 0#2 ∨ sel = 1#2 ∨ sel = 2#2 ∨ sel = 3#2 := by revert sel; decide
  all_goals simp

theorem addressEvent_iff (s : State) (c : BusCycle) (sel : BitVec 2) :
    s.addressEvent c sel = true ↔
      (sel = 0#2 ∧ s.addressMatches false c) ∨ (sel = 1#2 ∧ s.addressMatches true c) ∨
        (sel = 2#2 ∧ s.addressMatches false c ∧ s.addressMatches true c) ∨
        (sel = 3#2 ∧ (s.addressMatches false c ∨ s.addressMatches true c)) := by
  have hE := busCycle_addressEvent_iff c (bits s.lctrl1 0 3) (bits s.lctrl1 12 2) s.cmpE
  have hF := busCycle_addressEvent_iff c (bits s.lctrl1 3 3) (bits s.lctrl1 14 2) s.cmpF
  rw [← selected_iff, State.addressEvent]
  split_ifs
  exacts [hE, hF, Bool.and_eq_true_iff.trans (and_congr hE hF), (Bool.or_eq_true _ _ ▸ or_congr hE hF)]

/-! Comparators G and H: the data in its byte lanes (R737, R739). -/

theorem bits_byte (v : Word) {i : Nat} (hi : i < 4) : bits v (8 * i) 8 = leftByte v i := by
  apply BitVec.eq_of_getLsbD_eq
  intro k hk
  simp only [bits, leftByte, BitVec.getLsbD_extractLsb', BitVec.getLsbD_setWidth, BitVec.getLsbD_ushiftRight]
  congr 2
  omega

theorem bits_half (v : Word) {i : Nat} (hi : i + 1 < 4) : bits v (8 * i) 16 = leftByte v i ++ leftByte v (i + 1) := by
  rw [← bits_byte v (by omega), ← bits_byte v hi]
  apply BitVec.eq_of_getLsbD_eq
  intro k hk
  simp only [bits, BitVec.getLsbD_append, BitVec.getLsbD_extractLsb']
  split_ifs with h
  · simp only [hk, h, decide_true, Bool.true_and]
    congr 1
  · simp only [hk, decide_true, Bool.true_and, show k - 8 < 8 by omega]
    congr 1
    omega

theorem bits_all (v : Word) : bits v 0 32 = v := BitVec.extractLsb'_eq_self

theorem compares_iff (g : DataComparator) (d : Word) (i w : Nat) :
    g.compares d i w = true ↔
      comparesAs g.ct (readAs g.signed (bits d (8 * i) w)) (readAs g.signed (bits g.value (8 * i) w)) := by
  unfold DataComparator.compares readAs
  cases g.signed <;> simp [compareEvent_iff]

theorem valid_iff (c : BusCycle) (i : Nat) : c.valid i = true ↔ c.hasLane i := by
  simp [BusCycle.valid, BusCycle.hasLane]

/-- A word fills the lanes. -/
theorem lanes_word {c : BusCycle} (h : c.size = 4) : c.lanes = c.data := by
  simp [BusCycle.lanes, h]

/-- Comparator H, or G. -/
def dataComparator (s : State) (h : Bool) : DataComparator := if h then s.comparatorH else s.comparatorG

theorem comparatorFields_eq (s : State) (h : Bool) :
    let g := dataComparator s h
    s.comparatorFields h = (g.ct, g.size, g.signed, g.mask, g.value) := by
  cases h <;> rfl

theorem matchLane_iff (s : State) (h : Bool) (c : BusCycle) {i : Nat} (hi : i < 4) :
    (dataComparator s h).matchLane c i = true ↔ s.laneMatches h c i := by
  have hfields := comparatorFields_eq s h
  generalize dataComparator s h = g at hfields ⊢
  simp only [State.laneMatches, hfields, DataComparator.matchLane, Bool.and_eq_true]
  refine and_congr_right fun _ => ?_
  have hsizes : g.size = 0#2 ∨ g.size = 1#2 ∨ g.size = 2#2 ∨ g.size = 3#2 := by
    generalize g.size = k
    revert k
    decide
  obtain hs | hs | hs | hs := hsizes
  case inl => simp [hs]
  case inr.inl =>
    by_cases hw : c.size = 4
    · simp [hs, hw, compares_iff, lanes_word, bits_all, and_assoc]
    · simp [hs, hw]
  case inr.inr.inl =>
    by_cases heven : i % 2 = 0
    · have hi' : i + 1 < 4 := by omega
      simp [hs, heven, compares_iff, bits_half _ hi', valid_iff, DataComparator.masked, and_assoc, BusCycle.laneByte,
        BusCycle.lanes]
    · simp [hs, heven]
  case inr.inr.inr =>
    simp [hs, compares_iff, bits_byte _ hi, valid_iff, DataComparator.masked, and_assoc, BusCycle.laneByte, BusCycle.lanes]

theorem anyLane_iff (p : Nat → Bool) : anyLane p = true ↔ ∃ i, i < 4 ∧ p i = true := by
  rw [exists_lt_four]
  simp only [anyLane, Bool.or_eq_true]

/-- An L-data event is one on some lane, selected as for addresses (R738). -/
theorem dataEvent_iff (s : State) (c : BusCycle) (sel : BitVec 2) :
    s.dataEvent c sel = true ↔ ∃ i, i < 4 ∧
      ((sel = 0#2 ∧ s.laneMatches false c i) ∨ (sel = 1#2 ∧ s.laneMatches true c i) ∨
        (sel = 2#2 ∧ s.laneMatches false c i ∧ s.laneMatches true c i) ∨
        (sel = 3#2 ∧ (s.laneMatches false c i ∨ s.laneMatches true c i))) := by
  have hG {i : Nat} (hi : i < 4) : s.comparatorG.matchLane c i = true ↔ s.laneMatches false c i := matchLane_iff s false c hi
  have hH {i : Nat} (hi : i < 4) : s.comparatorH.matchLane c i = true ↔ s.laneMatches true c i := matchLane_iff s true c hi
  simp only [← selected_iff, State.dataEvent]
  split_ifs <;> refine (anyLane_iff _).trans (exists_congr fun i => and_congr_right fun hi => ?_)
  · exact hG hi
  · exact hH hi
  · rw [Bool.and_eq_true, hG hi, hH hi]
  · rw [Bool.or_eq_true, hG hi, hH hi]

/-! The watchpoints (R738). -/

section
variable {t : State} {iw : Nat → Bool} {W : Nat → Prop}

theorem lWatchCycle_iff (hiw : ∀ k, iw k = true ↔ W k) (x : Nat) (c : BusCycle) :
    t.lWatchCycle iw x c = true ↔ t.watchesData W x c := by
  have hdontCare (field event : Bool) : (!field || event) = true ↔ (field = true → event = true) := by
    cases field <;> simp
  simp only [State.lWatchCycle, State.watchesData, Bool.and_eq_true, hdontCare, hiw, addressEvent_iff, dataEvent_iff,
    and_assoc]
  rfl

theorem lWatch_iff (hiw : ∀ k, iw k = true ↔ W k) (x : Nat) :
    t.lWatch iw x = true ↔ ∃ c ∈ t.lbus, t.watchesData W x c := by
  simp only [State.lWatch, List.any_eq_true, lWatchCycle_iff hiw]

end

end Sys2Proof.Proofs

/-! The data breakpoint after an instruction (61_development_support.md R738 to R746; 60_exceptions.md R655, R696). -/

namespace Sys2Proof.Proofs

open Sys2Proof Sys2Proof.Machine Sys2Proof.Laws

/-- The cycle meets an L-bus watchpoint that breaks. -/
def meetsDataBreakpoint (t : State) (W : Nat → Prop) (c : BusCycle) : Prop :=
  (t.watchesData W 0 c ∧ t.breaksData t.countA 0) ∨ (t.watchesData W 1 c ∧ t.breaksData t.countB 1)

section
variable {s t : State} {iw : Nat → Bool} {W : Nat → Prop}

/-- The trap enables of LCTRL2 and TECR (R746). -/
theorem lTrapEnabled_iff (t : State) (x : Nat) :
    t.lTrapEnabled x = true ↔ bit t.lctrl2 (28 + x) = true ∨ t.port.tecr.getLsbD (4 - x) = true := by
  simp [State.lTrapEnabled, Port.tecrBit, show 8 - (4 + x) = 4 - x by omega]

/-- A watchpoint that is asserted breaks by a trap enable or by its counter, which counts it and expires. -/
theorem trapsData_iff (hiw : ∀ k, iw k = true ↔ W k) {x : Nat} (c : Word) (hw : ∃ y ∈ t.lbus, t.watchesData W x y) :
    trapsData t iw x c = true ↔ t.breaksData c x := by
  have hleft : bits c 0 16 = 1#16 → bits c 0 16 ≠ 0 := fun h => by rw [h]; decide
  simp only [trapsData, Bool.or_eq_true, Bool.and_eq_true, countDown_expires_iff (lWatch_iff hiw x), brkUnmasked_iff,
    lTrapEnabled_iff, lWatch_iff hiw, hw, expires, State.counts, State.breaksData, countsL]
  tauto

theorem dataBreaks_iff (hiw : ∀ k, iw k = true ↔ W k) {c : BusCycle} (hc : c ∈ t.lbus) :
    dataBreaks t iw c = true ↔ meetsDataBreakpoint t W c := by
  have hwatch (x : Nat) (counter : Word) : (trapsData t iw x counter && t.lWatchCycle iw x c) = true ↔
      t.watchesData W x c ∧ t.breaksData counter x := by
    rw [Bool.and_eq_true, and_comm, lWatchCycle_iff hiw]
    exact and_congr_right fun hw => trapsData_iff hiw counter ⟨c, hc, hw⟩
  rw [dataBreaks, Bool.or_eq_true, hwatch, hwatch]
  rfl

/-- The first cycle that breaks is the one found. -/
theorem find_dataBreaks_first (hiw : ∀ k, iw k = true ↔ W k) {pre post : List BusCycle} {c : BusCycle}
    (hl : t.lbus = pre ++ c :: post) (hpre : ∀ d ∈ pre, ¬meetsDataBreakpoint t W d) (hc : meetsDataBreakpoint t W c) :
    t.lbus.find? (dataBreaks t iw) = some c := by
  refine List.find?_eq_some_iff_append.mpr ⟨(dataBreaks_iff hiw (by simp [hl])).mpr hc, pre, post, hl, fun d hd => ?_⟩
  rw [Bool.not_eq_true', ← Bool.not_eq_true, dataBreaks_iff hiw (by simp [hl, hd])]
  exact hpre d hd

theorem find_dataBreaks_none (hiw : ∀ k, iw k = true ↔ W k) (h : ∀ c ∈ t.lbus, ¬meetsDataBreakpoint t W c) :
    t.lbus.find? (dataBreaks t iw) = none :=
  List.find?_eq_none.mpr fun c hc => (dataBreaks_iff hiw hc).not.mpr (h c hc)

/-- The counters of the L-bus watchpoints count once for the instruction (R740, R743). -/
theorem dataCounted_counters (hiw : ∀ k, iw k = true ↔ W k) :
    countedIf (t.counts t.countA 2#2 (∃ c ∈ t.lbus, t.watchesData W 0 c)) t.countA (dataCounted t iw).countA ∧
      countedIf (t.counts t.countB 2#2 (∃ c ∈ t.lbus, t.watchesData W 1 c)) t.countB (dataCounted t iw).countB :=
  ⟨countedIf_countDown (lWatch_iff hiw 0), countedIf_countDown (lWatch_iff hiw 1)⟩

/-- A field that is 0 has its bits clear. -/
theorem bit_of_bits_eq_zero {w : Word} {first len k : Nat} (h : bits w first len = 0) (hl : first + len ≤ 32)
    (hfirst : first ≤ k) (hk : k < first + len) : bit w k = false := by
  have hbit := bits_getLsbD w first len (first + len - 1 - k) (by omega) hl
  rw [h, show first + len - 1 - (first + len - 1 - k) = k by omega] at hbit
  exact hbit.symm.trans BitVec.getLsbD_zero

theorem noInstrBreakpoint_not_matches (hn : s.noInstrBreakpoint) : ¬s.matchesInstr := by
  obtain ⟨hictrl, htecr, -, -⟩ := hn
  rintro ⟨-, k, hk, -, htrap | htrap⟩
  · rw [bit_of_bits_eq_zero hictrl (by decide) (by omega) (by omega)] at htrap
    exact absurd htrap (by decide)
  · have hbit := congrArg (BitVec.getLsbD · (3 - k)) htecr
    simp only [BitVec.getLsbD_extractLsb', show 5 + (3 - k) = 8 - k by omega, htrap, show 3 - k < 4 by omega] at hbit
    simp at hbit

/-- Without trap enables and counters of the I-bus an instruction is run as it is met. -/
theorem iBreakpoint_none (h : s.inDebug = false) (hn : s.noInstrBreakpoint) : s.iBreakpoint = (false, s) := by
  have hmatch := noInstrBreakpoint_not_matches hn
  obtain ⟨-, -, hsourceA, hsourceB⟩ := hn
  have hbreak : ¬breaksInstr s := by
    rintro (⟨hm, -⟩ | ⟨⟨hsource, -⟩, -⟩ | ⟨⟨hsource, -⟩, -⟩)
    exacts [hmatch hm, hsourceA hsource, hsourceB hsource]
  obtain ⟨a, b, hpass, ha, hb⟩ := iBreakpoint_passes h hbreak
  rw [hpass, ictrlAfter_of_not_matches h hmatch, ha.2 fun hc => hsourceA hc.1, hb.2 fun hc => hsourceB hc.1]
  rfl

end

/-- Settles O8: the step is `afterInstr` of what the instruction left, which the first cycle that breaks, or the lack of one,
decides. -/
theorem dataBreakpointResult : Obligations.DataBreakpointResult := by
  intro s t w i hs hn hf hdec hx he hd hi watched breaks
  have hstep := step_runWord hs hf
  obtain ⟨-, -, -, -, -, hdbg, -⟩ := hs
  have hdbg' : s.fresh.inDebug = false := hdbg
  have hiw (k : Nat) : s.fresh.iWatch k = true ↔ s.watchesInstr k := iWatch_iff_watchesInstr hdbg' k
  let u := t.afterInstr s.fresh i s.fresh.iWatch
  obtain ⟨hcountA, hcountB, hintr⟩ := afterInstr_counters (iw := s.fresh.iWatch) s.fresh i he hd
  obtain ⟨ha, hb⟩ := dataCounted_counters (t := t) hiw
  have hnone : s.fresh.iBreakpoint = (false, s.fresh) := iBreakpoint_none hdbg' hn
  refine ⟨u, ?_, hcountA ▸ ha, hcountB ▸ hb, fun pre c post hl hpre hc => ?_, fun hno hse hbe => ?_⟩
  · rw [hstep, runWord_completes hnone hdec hx]
    exact settled_next (hintr.trans hi)
  · have hu : u = _ := afterInstr_dataBreakpoint s.fresh i he hd (find_dataBreaks_first hiw hl hpre hc)
    have honly : onlyBreakpoint t (dataStopped t s.fresh.iWatch c) := rfl
    have hd' : (dataStopped t s.fresh.iWatch c).inDebug = false := hd
    rw [hu]
    exact ⟨enters_of_onlyBreakpoint honly (take_enters .dataBreakpoint (s.pc + 4) 0 hd'), take_dataBreakpoint_bar _ _ hd'⟩
  · have hu : u = _ := afterInstr_noDataBreakpoint s.fresh i he (find_dataBreaks_none hiw hno)
    rw [traced_off (msr := s.fresh.msr) i hse hbe] at hu
    rw [hu]
    rfl

end Sys2Proof.Proofs

/-! Debug mode: one transmission of the development port (62_debug_mode_and_port.md R749, R752, R753). -/

namespace Sys2Proof.Proofs

open Sys2Proof Sys2Proof.Machine Sys2Proof.Laws

/-- In debug mode nothing comes from outside before or during the next step but what the port has received. -/
def debugUndisturbed (s : State) : Prop :=
  s.events = [] ∧ s.intrusions = [] ∧ s.cutShort = false ∧ s.checkstop = false ∧ s.resetAsserted = false ∧ s.inDebug = true

/-- No status is latched for the next transmission to shift out. -/
def nothingLatched (p : Port) : Prop := p.data = none ∧ p.seq = false ∧ p.exc = false

/-- The first transmission leaves the inbox. -/
@[simps port] def received (s : State) (rest : List Transmission) : State :=
  { s with port := { s.port with inbox := rest } }

/-- Null is shifted out. -/
def nullShifted (s : State) : State := { s with port := { s.port with reply := some .null } }

/-- The first transmission is taken and null is shifted out. -/
@[simps port pc ecr srr0 srr1 msr irq decPending inDebug intrusions gpr mem]
def transmissionTaken (s : State) (rest : List Transmission) : State :=
  { s with port := { s.port with inbox := rest, reply := some .null } }

/-- The data that a read of DPDR waits for has come. -/
@[simps port pc msr irq decPending inDebug intrusions lbus gpr mem]
def dataRead (s : State) (rD : Reg) (v : Word) : State :=
  { s.fresh.setR rD v with port := { s.port with wait := none } }

/-- A software emulation exception is reported to the development tool. -/
@[simps ecr port pc gpr srr0 srr1 msr irq decPending inDebug intrusions excTaken mem]
def emulationReported (s : State) : State :=
  { s with
    ecr := setBit s.ecr 17 true, reservation := none, excTaken := some .before, port := { s.port with exc := true } }

theorem nullShifted_received (s : State) (rest : List Transmission) :
    nullShifted (received s rest) = transmissionTaken s rest := by
  simp only [nullShifted, received, transmissionTaken]

@[simp] theorem fresh_lbus (s : State) : s.fresh.lbus = [] := rfl

/-- The state in which an instruction of debug mode begins. -/
theorem fresh_transmissionTaken (s : State) (rest : List Transmission) :
    (transmissionTaken s rest).fresh =
      { s.fresh with port := { s.port with inbox := rest, reply := some .null } } := by
  simp only [transmissionTaken, State.fresh]

theorem sequenceError_intrusions (s : State) : s.sequenceError.intrusions = s.intrusions := by
  simp only [State.sequenceError]

/-- Neither an external interrupt nor a decrementer request is to be reported. -/
def noRequest (s : State) : Prop := (s.irq && msrEE s.msr) = false ∧ (s.decPending && msrEE s.msr) = false

section
variable {s : State} {rest : List Transmission}

theorem deliverEvents_nil (h : s.events = []) : s.deliverEvents = s := by
  rw [State.deliverEvents, h]

theorem step_debugStep (h : debugUndisturbed s) : step s = settled s.debugStep := by
  obtain ⟨hevents, -, hcut, hstop, hreset, hdbg⟩ := h
  simp [step, State.stepOnce, deliverEvents_nil hevents, hstop, hreset, hcut, State.proceed, hdbg]

theorem debugStep_nil (h : s.port.inbox = []) : s.debugStep = .next s := by
  rw [State.debugStep, h]

theorem debugStep_cons {x : Transmission} (h : s.port.inbox = x :: rest) :
    s.debugStep = (received s rest).debugTransmission x := by
  rw [State.debugStep, h]
  rfl

/-! What is shifted out (Table 8-15). -/

theorem shiftOut_null {p : Port} (cpu : Bool) (h : nothingLatched p) : p.shiftOut cpu = (.null, p) := by
  obtain ⟨hdata, hseq, hexc⟩ := h
  simp [Port.shiftOut, hdata, hseq, hexc]

theorem shiftOut_cpuException {p : Port} (cpu : Bool) (hdata : p.data = none) (hseq : p.seq = false) (hexc : p.exc = true) :
    p.shiftOut cpu = (.cpuException, { p with exc := false }) := by
  simp [Port.shiftOut, hdata, hseq, hexc]

theorem nothingLatched_received (rest : List Transmission) (h : nothingLatched s.port) :
    nothingLatched (received s rest).port := by
  simpa [nothingLatched] using h

/-! What a transmission does, by its kind and by whether a read of DPDR waits (R752). -/

theorem debugTransmission_latchedException {w : Word} (hdata : s.port.data = none) (hseq : s.port.seq = false)
    (hexc : s.port.exc = true) (hwait : s.port.wait = none) :
    s.debugTransmission (.cpuInstr w) =
      .next { s with port := { s.port with exc := false, reply := some .cpuException } } := by
  simp [State.debugTransmission, shiftOut_cpuException _ hdata hseq hexc, hwait]

section
variable (hlatch : nothingLatched s.port)
include hlatch

theorem debugTransmission_instruction (w : Word) (hwait : s.port.wait = none) :
    s.debugTransmission (.cpuInstr w) = (nullShifted s).fresh.runDebugWord w := by
  simp [State.debugTransmission, shiftOut_null _ hlatch, hwait, nullShifted]

theorem debugTransmission_instructionForData (w : Word) (hwait : s.port.wait ≠ none) :
    s.debugTransmission (.cpuInstr w) = .next (nullShifted s).sequenceError := by
  obtain ⟨rD, hrD⟩ := Option.ne_none_iff_exists'.mp hwait
  simp [State.debugTransmission, shiftOut_null _ hlatch, hrD, nullShifted]

theorem debugTransmission_data (v : Word) {rD : Reg} (hwait : s.port.wait = some rD) :
    s.debugTransmission (.cpuData v) = .next ((dataRead (nullShifted s) rD v).afterDebugInstr (nullShifted s)) := by
  simp [State.debugTransmission, shiftOut_null _ hlatch, hwait, nullShifted, dataRead]

theorem debugTransmission_dataForInstruction (v : Word) (hwait : s.port.wait = none) :
    s.debugTransmission (.cpuData v) = .next (nullShifted s).sequenceError := by
  simp [State.debugTransmission, shiftOut_null _ hlatch, hwait, nullShifted]

/-- The trap enable control register is written whether or not a read of DPDR waits. -/
theorem debugTransmission_trapEnable (control : Bool) (d : BitVec 7) :
    s.debugTransmission (.trapEnable control d) = .next ((nullShifted s).updateTecr control d) := by
  cases hwait : s.port.wait <;> simp [State.debugTransmission, shiftOut_null _ hlatch, hwait, nullShifted]

end

/-- A transmission that ends in a state without writes to come is the whole step. -/
theorem step_of_debugTransmission {x : Transmission} {t : State} (h : debugUndisturbed s) (hin : s.port.inbox = x :: rest)
    (hx : (received s rest).debugTransmission x = .next t) (hi : t.intrusions = []) : step s = .next t := by
  rw [step_debugStep h, debugStep_cons hin, hx, settled_next hi]

/-! Execute(w) of debug mode and what follows it (R752, R753). -/

theorem runDebugWord_decoded {w : Word} {i : Instr} {t : State} (hd : decode w = .ok i) (hx : exec i s = .next t) :
    s.runDebugWord w = .next (t.afterDebugInstr s) := by
  simp [State.runDebugWord, hd, hx]

theorem runDebugWord_undecoded {w : Word} {e : Reject} (hd : decode w = .error e) :
    s.runDebugWord w = .next ((s.take .softwareEmulation s.pc 0).afterDebugInstr s) := by
  simp [State.runDebugWord, hd]

theorem take_softwareEmulation_inDebug (srr0 : Word) (h : s.inDebug = true) :
    s.take .softwareEmulation srr0 0 = emulationReported s := by
  rw [State.take, takeVia_inDebug _ _ _ _ h]
  rfl

theorem reportRequests_none (h : noRequest s) : s.reportRequests = s := by
  obtain ⟨hirq, hdec⟩ := h
  simp [State.reportRequests, hirq, hdec]

/-- Without a data breakpoint and requests only CIA is restored, where the instruction has not left debug mode. -/
theorem afterDebugInstr_unreported {t : State} (before : State) (h : noRequest t)
    (hb : t.excTaken = none → t.lBreakpoint (fun _ => false) before.pc = (false, t)) :
    t.afterDebugInstr before = if t.inDebug then { t with pc := before.pc } else t := by
  have hbreak : (if t.excTaken = none then (t.lBreakpoint (fun _ => false) before.pc).2 else t) = t := by
    split
    case isTrue hexc => rw [hb hexc]
    case isFalse => rfl
  simp only [State.afterDebugInstr, hbreak, reportRequests_none h, ite_self]
  cases t.inDebug <;> rfl

theorem afterDebugInstr_same {t before : State} (h : noRequest t) (hb : t.lBreakpoint (fun _ => false) before.pc = (false, t) ∨
    t.excTaken ≠ none) (hdbg : t.inDebug = true) (hpc : before.pc = t.pc) : t.afterDebugInstr before = t := by
  rw [afterDebugInstr_unreported before h fun hexc => hb.resolve_right (absurd hexc), if_pos hdbg, hpc]

/-- An instruction without data cycles is counted by no L-bus counter and meets no data breakpoint. -/
theorem lBreakpoint_noCycles {t : State} (iw : Nat → Bool) (next : Word) (h : t.lbus = []) :
    t.lBreakpoint iw next = (false, t) := by
  have hwatch (x : Nat) : t.lWatch iw x = false := by simp [State.lWatch, h]
  have hcounted : dataCounted t iw = t := by
    rw [dataCounted, hwatch, hwatch]
    simp [State.count, countDown]
  rw [lBreakpoint_of_find_none next (by rw [h]; rfl), hcounted]

/-! CIA while debug mode lasts. -/

/-- If the result is a state in debug mode, its CIA is `pc`. -/
def keepsCia (pc : Word) (r : Result) : Prop := ∀ t, r = .next t → t.inDebug = true → t.pc = pc

section
variable {pc : Word}

theorem keepsCia_next {t : State} (h : t.inDebug = true → t.pc = pc) : keepsCia pc (.next t) := by
  intro u hu
  cases hu
  exact h

theorem keepsCia_fault (f : Fault) : keepsCia pc (.fault f) := by
  intro u hu
  cases hu

theorem keepsCia_refused (f : Refusal) : keepsCia pc (.refused f) := by
  intro u hu
  cases hu

theorem afterDebugInstr_keepsCia {t before : State} (hpc : before.pc = pc) :
    keepsCia pc (.next (t.afterDebugInstr before)) := by
  refine keepsCia_next ?_
  unfold State.afterDebugInstr
  dsimp only
  generalize (if t.excTaken = none then _ else t : State) = u
  cases hdbg : u.inDebug
  · exact fun h => absurd h (by simp [hdbg])
  · exact fun _ => hpc

theorem runDebugWord_keepsCia (w : Word) (hpc : s.pc = pc) : keepsCia pc (s.runDebugWord w) := by
  unfold State.runDebugWord
  split
  case h_1 => exact afterDebugInstr_keepsCia hpc
  case h_2 =>
    split
    · exact afterDebugInstr_keepsCia hpc
    · exact keepsCia_fault _
    · exact keepsCia_refused _

theorem settled_keepsCia {r : Result} (h : keepsCia pc r) : keepsCia pc (settled r) := by
  cases r with
  | next t =>
    have hframe := busWrites_frame t.intrusions { t with intrusions := [] }
    refine keepsCia_next fun hdbg => ?_
    rw [State.settle, hframe] at hdbg ⊢
    exact h t rfl hdbg
  | fault f => exact keepsCia_fault f
  | refused f => exact keepsCia_refused f

end

/-- Whatever was latched, an instruction that is sent leaves CIA. -/
theorem debugStep_keepsCia {w : Word} (hin : s.port.inbox = .cpuInstr w :: rest) : keepsCia s.pc s.debugStep := by
  rw [debugStep_cons hin]
  unfold State.debugTransmission
  dsimp only
  split
  · exact keepsCia_next fun _ => rfl
  · split
    · exact keepsCia_next fun _ => rfl
    · exact runDebugWord_keepsCia w rfl

theorem abandon_pc (s t : State) : (s.abandon t).pc = s.pc := by
  rw [abandon_frame]

/-- A step that RESET cuts short leaves CIA, whatever was in progress. -/
theorem proceedCut_keepsCia (s : State) : keepsCia s.pc s.proceedCut := by
  unfold State.proceedCut
  dsimp only
  split <;> exact keepsCia_next fun _ => abandon_pc _ _

theorem step_keepsCia {w : Word} (hevents : s.events = []) (hstop : s.checkstop = false) (hreset : s.resetAsserted = false)
    (hdbg : s.inDebug = true) (hin : s.port.inbox = .cpuInstr w :: rest) : keepsCia s.pc (step s) := by
  have hstep : step s = settled (if s.cutShort then s.proceedCut else s.debugStep) := by
    simp [step, State.stepOnce, deliverEvents_nil hevents, hstop, hreset, State.proceed, hdbg]
  rw [hstep]
  refine settled_keepsCia ?_
  split
  · exact proceedCut_keepsCia s
  · exact debugStep_keepsCia hin

/-! The step with nothing latched, by the kind of transmission and by whether a read of DPDR waits. -/

section
variable (hs : debugUndisturbed s) (hlatch : nothingLatched s.port)
include hs hlatch

theorem step_debugInstruction {w : Word} {i : Instr} {t : State} (hin : s.port.inbox = .cpuInstr w :: rest)
    (hwait : s.port.wait = none) (hd : decode w = .ok i) (hx : exec i (transmissionTaken s rest).fresh = .next t)
    (h0 : bit t.lctrl2 0 = false) (h1 : bit t.lctrl2 10 = false) (hi : t.intrusions = []) (hr : noRequest t) :
    step s = .next (if t.inDebug then { t with pc := s.pc } else t) := by
  have hafter : t.afterDebugInstr (transmissionTaken s rest).fresh = if t.inDebug then { t with pc := s.pc } else t := by
    rw [afterDebugInstr_unreported _ hr fun _ => lBreakpoint_disabled _ _ h0 h1, fresh_pc, transmissionTaken_pc]
  refine step_of_debugTransmission hs hin ?_ (by split <;> exact hi)
  rw [debugTransmission_instruction (nothingLatched_received rest hlatch) w (by simpa using hwait), nullShifted_received,
    runDebugWord_decoded hd hx, hafter]

/-- A word that is no instruction is reported as a software emulation exception, and that is all it does. -/
theorem step_debugUndecoded {w : Word} {e : Reject} (hin : s.port.inbox = .cpuInstr w :: rest) (hwait : s.port.wait = none)
    (hd : decode w = .error e) (hr : noRequest s) :
    step s = .next (emulationReported (transmissionTaken s rest).fresh) := by
  have ⟨_, hi, _, _, _, hdbg⟩ := hs
  have htake := take_softwareEmulation_inDebug (s := (transmissionTaken s rest).fresh) s.pc (by simpa using hdbg)
  have hafter : (emulationReported (transmissionTaken s rest).fresh).afterDebugInstr (transmissionTaken s rest).fresh =
      emulationReported (transmissionTaken s rest).fresh :=
    afterDebugInstr_same (by simpa [noRequest] using hr) (.inr (by simp)) (by simpa using hdbg) (by simp)
  refine step_of_debugTransmission hs hin ?_ (by simpa using hi)
  rw [debugTransmission_instruction (nothingLatched_received rest hlatch) w (by simpa using hwait), nullShifted_received,
    runDebugWord_undecoded hd, fresh_pc, transmissionTaken_pc, htake, hafter]

theorem step_debugData {v : Word} {rD : Reg} (hin : s.port.inbox = .cpuData v :: rest) (hwait : s.port.wait = some rD)
    (hr : noRequest s) : step s = .next (dataRead (transmissionTaken s rest) rD v) := by
  have ⟨_, hi, _, _, _, hdbg⟩ := hs
  have hafter : (dataRead (transmissionTaken s rest) rD v).afterDebugInstr (transmissionTaken s rest) =
      dataRead (transmissionTaken s rest) rD v :=
    afterDebugInstr_same (by simpa [noRequest] using hr) (.inl (lBreakpoint_noCycles _ _ (by simp))) (by simpa using hdbg)
      (by simp)
  refine step_of_debugTransmission hs hin ?_ (by simpa using hi)
  rw [debugTransmission_data (nothingLatched_received rest hlatch) v (by simpa using hwait), nullShifted_received, hafter]

theorem step_instructionForData {w : Word} (hin : s.port.inbox = .cpuInstr w :: rest) (hwait : s.port.wait ≠ none) :
    step s = .next (transmissionTaken s rest).sequenceError := by
  have ⟨_, hi, _⟩ := hs
  refine step_of_debugTransmission hs hin ?_ (by simpa [sequenceError_intrusions] using hi)
  rw [debugTransmission_instructionForData (nothingLatched_received rest hlatch) w (by simpa using hwait),
    nullShifted_received]

theorem step_dataForInstruction {v : Word} (hin : s.port.inbox = .cpuData v :: rest) (hwait : s.port.wait = none) :
    step s = .next (transmissionTaken s rest).sequenceError := by
  have ⟨_, hi, _⟩ := hs
  refine step_of_debugTransmission hs hin ?_ (by simpa [sequenceError_intrusions] using hi)
  rw [debugTransmission_dataForInstruction (nothingLatched_received rest hlatch) v (by simpa using hwait),
    nullShifted_received]

theorem step_trapEnable {control : Bool} {d : BitVec 7} (hin : s.port.inbox = .trapEnable control d :: rest) :
    step s = .next ((transmissionTaken s rest).updateTecr control d) := by
  have ⟨_, hi, _⟩ := hs
  refine step_of_debugTransmission hs hin ?_ ?_
  · rw [debugTransmission_trapEnable (nothingLatched_received rest hlatch), nullShifted_received]
  · cases control <;> simpa [State.updateTecr] using hi

end

theorem step_latchedException {w : Word} (hs : debugUndisturbed s) (hin : s.port.inbox = .cpuInstr w :: rest)
    (hdata : s.port.data = none) (hseq : s.port.seq = false) (hexc : s.port.exc = true) (hwait : s.port.wait = none) :
    step s = .next { s with port := { s.port with inbox := rest, exc := false, reply := some .cpuException } } := by
  have ⟨_, hi, _⟩ := hs
  refine step_of_debugTransmission hs hin ?_ (by simpa using hi)
  rw [debugTransmission_latchedException (by simpa using hdata) (by simpa using hseq) (by simpa using hexc)
    (by simpa using hwait)]
  simp only [received]

end

/-- Settles O60: the step is the transmission at the head of the inbox, with one lemma for each kind of transmission and state of
the latches. -/
theorem debugModeRunsFromPort : Obligations.DebugModeRunsFromPort := by
  refine ⟨?nothingSent, ?cia, ?instruction, ?dataOrTrapEnable, ?dataAwaited⟩
  case nothingSent =>
    intro s he hi hcut hstop hreset hdbg hin
    rw [step_debugStep ⟨he, hi, hcut, hstop, hreset, hdbg⟩, debugStep_nil hin, settled_next hi]
  case cia =>
    intro s t w rest he hstop hreset hdbg hin hx
    exact step_keepsCia he hstop hreset hdbg hin t hx
  case instruction =>
    intro s w rest he hi hcut hstop hreset hdbg hin hdata hseq u
    have hs : debugUndisturbed s := ⟨he, hi, hcut, hstop, hreset, hdbg⟩
    refine ⟨fun hexc hwait => ⟨fun i t hd hx h0 h1 hti hirq hdec => ?_, fun e hd hirq hdec => ?_⟩, fun hexc hwait => ?_,
      fun hexc hwait => ?_⟩
    · rw [show u = _ from (fresh_transmissionTaken s rest).symm] at hx
      exact step_debugInstruction hs ⟨hdata, hseq, hexc⟩ hin hwait hd hx h0 h1 hti ⟨hirq, hdec⟩
    · refine ⟨_, step_debugUndecoded hs ⟨hdata, hseq, hexc⟩ hin hwait hd ⟨hirq, hdec⟩, ?_⟩
      simp [u, hdbg, sameMemory_of_mem]
    · exact step_latchedException hs hin hdata hseq hexc hwait
    · rw [step_instructionForData hs ⟨hdata, hseq, hexc⟩ hin hwait]
      simp only [State.sequenceError, transmissionTaken]
  case dataOrTrapEnable =>
    intro s rest he hi hcut hstop hreset hdbg hdata hseq hexc
    have hs : debugUndisturbed s := ⟨he, hi, hcut, hstop, hreset, hdbg⟩
    refine ⟨fun v hin hwait => ?_, fun d hin => ?_, fun d hin => ?_⟩
    · rw [step_dataForInstruction hs ⟨hdata, hseq, hexc⟩ hin hwait]
      simp only [State.sequenceError, transmissionTaken, hwait]
    all_goals
      rw [step_trapEnable hs ⟨hdata, hseq, hexc⟩ hin]
      simp [State.updateTecr, transmissionTaken]
  case dataAwaited =>
    intro s v rest rD he hi hcut hstop hreset hdbg hin hwait hdata hseq hexc hirq hdec
    have hs : debugUndisturbed s := ⟨he, hi, hcut, hstop, hreset, hdbg⟩
    have hgpr : (dataRead (transmissionTaken s rest) rD v).gpr = (s.setR rD v).gpr := by simp [State.setR]
    refine ⟨_, step_debugData hs ⟨hdata, hseq, hexc⟩ hin hwait ⟨hirq, hdec⟩, ?_, fun n hn => ?_, ?_⟩
    · rw [r_congr hgpr, r_setR_same]
    · rw [r_congr hgpr, r_setR_ne s v (by simpa using hn)]
    · simp [hdbg, sameMemory_of_mem]

end Sys2Proof.Proofs

/-! Privileged forms at the user level, and special registers that do not exist or answer with an error
(49_processor_control_sync_cache.md R585 to R587, R592; 60_exceptions.md R680; 70_reset_and_hazards.md R812). -/

namespace Sys2Proof.Proofs

open Sys2Proof Sys2Proof.Machine Sys2Proof.Laws

section
variable {i : Instr} {s : State} {n : BitVec 10}

/-- The privileged program exception of an instruction before it has an effect (R680 (a)). -/
theorem raises_of_privileged (hx : exec i s = privileged s) (h : s.inDebug = false) : raises .program 0x0004 i s := by
  have hclass : (s.take .program s.pc 0x0004).excTaken = some .before :=
    congrArg State.excTaken (takeVia_eq s .program Exc.program.causeBit s.pc 0x0004 h)
  exact ⟨_, hx, take_enters .program s.pc 0x0004 h, hclass⟩

theorem raises_of_softwareEmulation (hx : exec i s = softwareEmulation s) (h : s.inDebug = false) :
    raises .softwareEmulation 0 i s :=
  raises_of_exec hx (by decide) h

/-! The tests of an access to a special register (R587). -/

theorem sprDenied_iff : (msrPR s.msr && sprSupervisor n) = false ↔ s.mayAccess n := Bool.and_eq_false_iff

/-- An internal register that does not exist takes the software emulation exception at either level (R587). -/
theorem sprAccess_missing_internal {implemented : Bool} (k : State → Result) (hi : implemented = false)
    (hn : sprExternal n = false) : sprAccess n implemented s k = softwareEmulation s := by
  simp [sprAccess, hi, hn]

/-- A register that does not exist takes the software emulation exception, unless it is external and the program may not access
it. -/
theorem sprAccess_absent {implemented : Bool} (k : State → Result) (hi : implemented = false)
    (ha : s.mayAccess n ∨ sprExternal n = false) : sprAccess n implemented s k = softwareEmulation s := by
  rcases ha with hmay | hinternal
  · exact sprAccess_missing k hi (sprDenied_iff.mpr hmay)
  · exact sprAccess_missing_internal k hi hinternal

/-- At the user level a supervisor register that is external or exists is not accessed. -/
theorem sprAccess_user {implemented : Bool} (k : State → Result) (hpr : msrPR s.msr = true)
    (h : (sprSupervisor n && (sprExternal n || implemented)) = true) : sprAccess n implemented s k = privileged s := by
  obtain ⟨hsup, hexists⟩ := Bool.and_eq_true_iff.mp h
  exact sprAccess_denied k (by rw [hpr, hsup, Bool.and_self]) hexists

/-- An access to an external register that ends in an error (R812). -/
theorem sprAccess_error (implemented : Bool) (k : State → Result) (hn : sprExternal n = true)
    (he : n ∈ s.platform.sprErrors) (hmay : s.mayAccess n) : sprAccess n implemented s k = softwareEmulation s := by
  simp [sprAccess, hn, he, sprDenied_iff.mpr hmay]

/-! The instructions. -/

theorem exec_mfspr_eq (rD : Reg) : exec (.mfspr rD n) s = execMfspr rD n s := rfl

theorem exec_mtspr_eq (rS : Reg) : exec (.mtspr n rS) s = execMtspr n rS s := rfl

/-- At the user level a privileged form answers the program exception before it has an effect (R585, R587). -/
theorem exec_privilegedForm (hform : privilegedForm i = true) (hpr : msrPR s.msr = true) : exec i s = privileged s := by
  unfold privilegedForm at hform
  split at hform
  case h_1 =>
    change execRfi s = _
    exact supervisorOnly_user _ hpr
  case h_2 rD =>
    change execMfmsr rD s = _
    exact supervisorOnly_user _ hpr
  case h_3 rS =>
    change execMtmsr rS s = _
    exact supervisorOnly_user _ hpr
  case h_4 rD n => exact (exec_mfspr_eq rD).trans (sprAccess_user _ hpr hform)
  case h_5 n rS => exact (exec_mtspr_eq rS).trans (sprAccess_user _ hpr hform)
  case h_6 => cases hform

theorem exec_mftb_error (rD : Reg) (he : n ∈ s.platform.sprErrors) : exec (.mftb rD n) s = softwareEmulation s := by
  change execMftb rD n s = _
  simp [execMftb, he]

/-- Only 268 and 269 are numbers of `mftb` (R592, D48). -/
theorem exec_mftb_other (rD : Reg) (h268 : n ≠ 268#10) (h269 : n ≠ 269#10) :
    exec (.mftb rD n) s = softwareEmulation s := by
  change execMftb rD n s = _
  simp [execMftb, h268, h269]

end

/-- Settles O49: each clause names the answer of `exec`, the privileged program exception or the software emulation exception, by
the test of R585, R587 or R592 that fails. -/
theorem privilegedAndUnimplementedRegisters : Obligations.PrivilegedAndUnimplementedRegisters := by
  refine ⟨fun i s hform hpr hdbg => ?privileged, fun rD n s hn ha hdbg => ?unreadable, fun rS n s hn ha hdbg => ?unwritable,
    fun r n s hext he hdbg => ⟨fun hmay => ⟨?readError, ?writeError⟩, ?timeBaseError⟩,
    fun rD n s h268 h269 hdbg => ?otherTimeBase⟩
  case privileged => exact raises_of_privileged (exec_privilegedForm hform hpr) hdbg
  case unreadable => exact raises_of_softwareEmulation ((exec_mfspr_eq rD).trans (sprAccess_absent _ hn ha)) hdbg
  case unwritable => exact raises_of_softwareEmulation ((exec_mtspr_eq rS).trans (sprAccess_absent _ hn ha)) hdbg
  case readError => exact raises_of_softwareEmulation ((exec_mfspr_eq r).trans (sprAccess_error _ _ hext he hmay)) hdbg
  case writeError => exact raises_of_softwareEmulation ((exec_mtspr_eq r).trans (sprAccess_error _ _ hext he hmay)) hdbg
  case timeBaseError => exact raises_of_softwareEmulation (exec_mftb_error r he) hdbg
  case otherTimeBase => exact raises_of_softwareEmulation (exec_mftb_other rD h268 h269) hdbg

end Sys2Proof.Proofs

/-! The decoder on the words of the encoder (30_encoding.md R191 to R212). -/

namespace Sys2Proof.Proofs

open Sys2Proof Sys2Proof.Machine Sys2Proof.Laws

/-! The fields of the forms (R191 to R196). -/

section

variable (p : BitVec 6) (a b c d e : BitVec 5) (r : Bool)

theorem fields_formD (imm : BitVec 16) :
    fld (formD p a b imm) 26 6 = p ∧ fld (formD p a b imm) 21 5 = a ∧ fld (formD p a b imm) 16 5 = b ∧
      fld (formD p a b imm) 0 16 = imm ∧ fld (formD p a b imm) 23 3 = a.extractLsb' 2 3 ∧
      (formD p a b imm).getLsbD 21 = a.getLsbD 0 := by
  refine ⟨?_, ?_, ?_, ?_, ?_, ?_⟩
  case refine_6 => simp only [formD, BitVec.getLsbD_append]; simp
  all_goals
    refine BitVec.eq_of_getLsbD_eq fun k hk => ?_
    simp only [fld, formD, BitVec.getLsbD_extractLsb', BitVec.getLsbD_append]
    interval_cases k <;> simp

theorem fields_formX (xo : BitVec 10) :
    fld (formX p a b c xo r) 26 6 = p ∧ fld (formX p a b c xo r) 21 5 = a ∧ fld (formX p a b c xo r) 16 5 = b ∧
      fld (formX p a b c xo r) 11 5 = c ∧ fld (formX p a b c xo r) 1 10 = xo ∧
      fld (formX p a b c xo r) 23 3 = a.extractLsb' 2 3 ∧ fld (formX p a b c xo r) 18 3 = b.extractLsb' 2 3 ∧
      fld (formX p a b c xo r) 12 4 = c.extractLsb' 1 4 ∧ fld (formX p a b c xo r) 1 9 = xo.extractLsb' 0 9 ∧
      (formX p a b c xo r).getLsbD 0 = r ∧ (formX p a b c xo r).getLsbD 1 = xo.getLsbD 0 ∧
      (formX p a b c xo r).getLsbD 5 = xo.getLsbD 4 ∧ (formX p a b c xo r).getLsbD 10 = xo.getLsbD 9 ∧
      (formX p a b c xo r).getLsbD 21 = a.getLsbD 0 := by
  refine ⟨?_, ?_, ?_, ?_, ?_, ?_, ?_, ?_, ?_, ?_, ?_, ?_, ?_, ?_⟩
  case refine_10 => cases r <;> simp only [formX, BitVec.getLsbD_append] <;> rfl
  case refine_11 | refine_12 | refine_13 | refine_14 => simp only [formX, BitVec.getLsbD_append]; simp
  all_goals
    refine BitVec.eq_of_getLsbD_eq fun k hk => ?_
    simp only [fld, formX, BitVec.getLsbD_extractLsb', BitVec.getLsbD_append]
    interval_cases k <;> simp

theorem fld_formX_xo (xo : BitVec 10) : fld (formX p a b c xo r) 1 10 = xo :=
  (fields_formX p a b c r xo).2.2.2.2.1

theorem fld_formX_xo9 (xo : BitVec 10) : fld (formX p a b c xo r) 1 9 = xo.extractLsb' 0 9 :=
  (fields_formX p a b c r xo).2.2.2.2.2.2.2.2.1

theorem getLsbD_formX_5 (xo : BitVec 10) : (formX p a b c xo r).getLsbD 5 = xo.getLsbD 4 :=
  (fields_formX p a b c r xo).2.2.2.2.2.2.2.2.2.2.2.1

/-- XO form is X form with OE before nine bits of extended opcode. -/
theorem formXO_eq (oe : Bool) (xo : BitVec 9) :
    formXO p a b c oe xo r = formX p a b c (BitVec.ofBool oe ++ xo : BitVec 10) r := by
  refine BitVec.eq_of_getLsbD_eq fun k hk => ?_
  simp only [formXO, formX, BitVec.getLsbD_append]
  interval_cases k <;> simp

theorem fields_formA :
    fld (formA p a b c d e r) 26 6 = p ∧ fld (formA p a b c d e r) 21 5 = a ∧ fld (formA p a b c d e r) 16 5 = b ∧
      fld (formA p a b c d e r) 11 5 = c ∧ fld (formA p a b c d e r) 6 5 = d ∧ fld (formA p a b c d e r) 1 5 = e ∧
      (formA p a b c d e r).getLsbD 0 = r ∧ (formA p a b c d e r).getLsbD 5 = e.getLsbD 4 := by
  refine ⟨?_, ?_, ?_, ?_, ?_, ?_, ?_, ?_⟩
  case refine_7 => cases r <;> simp only [formA, BitVec.getLsbD_append] <;> rfl
  case refine_8 => simp only [formA, BitVec.getLsbD_append]; simp
  all_goals
    refine BitVec.eq_of_getLsbD_eq fun k hk => ?_
    simp only [fld, formA, BitVec.getLsbD_extractLsb', BitVec.getLsbD_append]
    interval_cases k <;> simp

theorem fld_formA_xo : fld (formA p a b c d e r) 1 5 = e :=
  (fields_formA p a b c d e r).2.2.2.2.2.1

theorem getLsbD_formA_5 : (formA p a b c d e r).getLsbD 5 = e.getLsbD 4 :=
  (fields_formA p a b c d e r).2.2.2.2.2.2.2

end

theorem sprOf_formX (p : BitVec 6) (a : BitVec 5) (n xo : BitVec 10) (r : Bool) :
    sprOf (formX p a (sprLow n) (sprHigh n) xo r) = n := by
  obtain ⟨-, -, hb, hc, -⟩ := fields_formX p a (sprLow n) (sprHigh n) r xo
  rw [sprOf, hb, hc]
  refine BitVec.eq_of_getLsbD_eq fun k hk => ?_
  simp only [sprLow, sprHigh, BitVec.getLsbD_extractLsb', BitVec.getLsbD_append]
  interval_cases k <;> simp

theorem fields_formB (p : BitVec 6) (bo bi : BitVec 5) (bd : BitVec 14) (aa lk : Bool) :
    fld (formB p bo bi bd aa lk) 26 6 = p ∧ fld (formB p bo bi bd aa lk) 21 5 = bo ∧
      fld (formB p bo bi bd aa lk) 16 5 = bi ∧ fld (formB p bo bi bd aa lk) 2 14 = bd ∧
      (formB p bo bi bd aa lk).getLsbD 1 = aa ∧ (formB p bo bi bd aa lk).getLsbD 0 = lk := by
  refine ⟨?_, ?_, ?_, ?_, ?_, ?_⟩
  case refine_5 => cases aa <;> simp only [formB, BitVec.getLsbD_append] <;> rfl
  case refine_6 => cases lk <;> simp only [formB, BitVec.getLsbD_append] <;> rfl
  all_goals
    refine BitVec.eq_of_getLsbD_eq fun k hk => ?_
    simp only [fld, formB, BitVec.getLsbD_extractLsb', BitVec.getLsbD_append]
    interval_cases k <;> simp

theorem fields_formI (p : BitVec 6) (li : BitVec 24) (aa lk : Bool) :
    fld (formI p li aa lk) 26 6 = p ∧ fld (formI p li aa lk) 2 24 = li ∧
      (formI p li aa lk).getLsbD 1 = aa ∧ (formI p li aa lk).getLsbD 0 = lk := by
  refine ⟨?_, ?_, ?_, ?_⟩
  case refine_3 => cases aa <;> simp only [formI, BitVec.getLsbD_append] <;> rfl
  case refine_4 => cases lk <;> simp only [formI, BitVec.getLsbD_append] <;> rfl
  all_goals
    refine BitVec.eq_of_getLsbD_eq fun k hk => ?_
    simp only [fld, formI, BitVec.getLsbD_extractLsb', BitVec.getLsbD_append]
    interval_cases k <;> simp

theorem fields_formXFL (p : BitVec 6) (fm : BitVec 8) (b : BitVec 5) (xo : BitVec 10) (r : Bool) :
    fld (formXFL p fm b xo r) 26 6 = p ∧ fld (formXFL p fm b xo r) 17 8 = fm ∧ fld (formXFL p fm b xo r) 11 5 = b ∧
      fld (formXFL p fm b xo r) 1 10 = xo ∧ (formXFL p fm b xo r).getLsbD 0 = r ∧
      (formXFL p fm b xo r).getLsbD 5 = xo.getLsbD 4 := by
  refine ⟨?_, ?_, ?_, ?_, ?_, ?_⟩
  case refine_5 => cases r <;> simp only [formXFL, BitVec.getLsbD_append] <;> rfl
  case refine_6 => simp only [formXFL, BitVec.getLsbD_append]; simp
  all_goals
    refine BitVec.eq_of_getLsbD_eq fun k hk => ?_
    simp only [fld, formXFL, BitVec.getLsbD_extractLsb', BitVec.getLsbD_append]
    interval_cases k <;> simp

theorem fields_formMtcrf (p : BitVec 6) (a : BitVec 5) (crm : BitVec 8) (xo : BitVec 10) :
    fld (formMtcrf p a crm xo) 26 6 = p ∧ fld (formMtcrf p a crm xo) 21 5 = a ∧
      fld (formMtcrf p a crm xo) 12 8 = crm ∧ fld (formMtcrf p a crm xo) 1 10 = xo := by
  refine ⟨?_, ?_, ?_, ?_⟩
  all_goals
    refine BitVec.eq_of_getLsbD_eq fun k hk => ?_
    simp only [fld, formMtcrf, BitVec.getLsbD_extractLsb', BitVec.getLsbD_append]
    interval_cases k <;> simp

/-! Narrow fields in a five-bit slot. -/

theorem extractLsb'_crfSlot (f : BitVec 3) : (crfSlot f).extractLsb' 2 3 = f := by
  revert f; decide

theorem extractLsb'_crfLSlot (f : BitVec 3) (l : Bool) : (crfLSlot f l).extractLsb' 2 3 = f := by
  revert f l; decide

theorem getLsbD_crfLSlot (f : BitVec 3) (l : Bool) : (crfLSlot f l).getLsbD 0 = l := by
  revert f l; decide

theorem extractLsb'_immSlot (n : BitVec 4) : (immSlot n).extractLsb' 1 4 = n := by
  revert n; decide

theorem fld_formXFL_xo (p : BitVec 6) (fm : BitVec 8) (b : BitVec 5) (xo : BitVec 10) (r : Bool) :
    fld (formXFL p fm b xo r) 1 10 = xo :=
  (fields_formXFL p fm b xo r).2.2.2.1

theorem getLsbD_formXFL_5 (p : BitVec 6) (fm : BitVec 8) (b : BitVec 5) (xo : BitVec 10) (r : Bool) :
    (formXFL p fm b xo r).getLsbD 5 = xo.getLsbD 4 :=
  (fields_formXFL p fm b xo r).2.2.2.2.2

theorem fld_formMtcrf_xo (p : BitVec 6) (a : BitVec 5) (crm : BitVec 8) (xo : BitVec 10) :
    fld (formMtcrf p a crm xo) 1 10 = xo :=
  (fields_formMtcrf p a crm xo).2.2.2

/-! The tables of the decoder, each as a function of the opcode that it looks at and of the word: what stands at an opcode is then
found by evaluation. -/

/-- A decoder that looks at one field first. -/
abbrev TableOf {n : Nat} (dec : Word → Except Reject Instr) (field : Word → BitVec n) :=
  { f : BitVec n → Word → Except Reject Instr // ∀ w, dec w = f (field w) w }

def primaryTable : TableOf decode (fld · 26 6) :=
  ⟨_, fun w => by
    beta_reduce
    rw [decode]
    generalize fld w 26 6 = opcode
    exact rfl⟩

theorem decode_eq_table (w : Word) : decode w = primaryTable.1 (fld w 26 6) w := primaryTable.2 w

def table31 : TableOf decode31 (fld · 1 10) :=
  ⟨_, fun w => by
    beta_reduce
    rw [decode31]
    generalize fld w 1 10 = opcode
    exact rfl⟩

theorem decode31_eq_table (w : Word) : decode31 w = table31.1 (fld w 1 10) w := table31.2 w

def table31xo9 : TableOf decode31xo9 (fld · 1 9) :=
  ⟨_, fun w => by
    beta_reduce
    rw [decode31xo9]
    generalize fld w 1 9 = opcode
    exact rfl⟩

theorem decode31xo9_eq_table (w : Word) : decode31xo9 w = table31xo9.1 (fld w 1 9) w := table31xo9.2 w

def table19 : TableOf decode19 (fld · 1 10) :=
  ⟨_, fun w => by
    beta_reduce
    rw [decode19]
    generalize fld w 1 10 = opcode
    exact rfl⟩

theorem decode19_eq_table (w : Word) : decode19 w = table19.1 (fld w 1 10) w := table19.2 w

def table59 : TableOf decode59 (fld · 1 5) :=
  ⟨_, fun w => by
    beta_reduce
    rw [decode59]
    generalize fld w 1 5 = opcode
    exact rfl⟩

theorem decode59_eq_table (w : Word) : decode59 w = table59.1 (fld w 1 5) w := table59.2 w

def table63a : TableOf decode63a (fld · 1 5) :=
  ⟨_, fun w => by
    beta_reduce
    rw [decode63a]
    generalize fld w 1 5 = opcode
    exact rfl⟩

theorem decode63a_eq_table (w : Word) : decode63a w = table63a.1 (fld w 1 5) w := table63a.2 w

def table63x : TableOf decode63x (fld · 1 10) :=
  ⟨_, fun w => by
    beta_reduce
    rw [decode63x]
    generalize fld w 1 10 = opcode
    exact rfl⟩

theorem decode63x_eq_table (w : Word) : decode63x w = table63x.1 (fld w 1 10) w := table63x.2 w

/-- Settles O1: the instructions by the form of their word. The fields of a word of the form are its slots, so the tables of
`decode` see the opcodes as numerals. -/
theorem decodeInvertsEncode : Obligations.DecodeInvertsEncode := by
  rintro i -
  cases i
  case addi | addis | addic | addicRc | subfic | mulli | cmpi | cmpli | andiRc | andisRc | ori | oris | xori
      | xoris | lbz | lbzu | lhz | lhzu | lha | lhau | lwz | lwzu | stb | stbu | sth | sthu | stw | stwu | lmw
      | stmw | lfs | lfsu | lfd | lfdu | stfs | stfsu | stfd | stfdu | twi =>
    change decode (formD _ _ _ _) = _
    rw [decode_eq_table, (fields_formD ..).1]
    conv_lhs => whnf
    simp only [fields_formD, extractLsb'_crfLSlot, getLsbD_crfLSlot]
  case mulhw | mulhwu =>
    change decode (formXO _ _ _ _ _ _ _) = _
    rw [formXO_eq, decode_eq_table, (fields_formX ..).1]
    change decode31 _ = _
    rw [decode31_eq_table, fld_formX_xo]
    change decode31xo9 _ = _
    rw [decode31xo9_eq_table, fld_formX_xo9]
    conv_lhs => whnf
    simp only [fields_formX]
  case add | addc | adde | addme | addze | subf | subfc | subfe | subfme | subfze | neg | mullw | divw | divwu =>
    rename_i oe _
    cases oe
    all_goals
      change decode (formXO _ _ _ _ _ _ _) = _
      rw [formXO_eq, decode_eq_table, (fields_formX ..).1]
      change decode31 _ = _
      rw [decode31_eq_table, fld_formX_xo]
      change decode31xo9 _ = _
      rw [decode31xo9_eq_table, fld_formX_xo9]
      conv_lhs => whnf
      simp only [fields_formX]
      rfl
  case stwcx =>
    change decode (formX _ _ _ _ _ _) = _
    rw [decode_eq_table, (fields_formX ..).1]
    change decode31 _ = _
    rw [decode31_eq_table, fld_formX_xo]
    change (if _ then _ else _) = _
    simp only [fields_formX]
    rfl
  case cmp | cmpl | and | or | xor | nand | nor | eqv | andc | orc | extsb | extsh | cntlzw | slw | srw | sraw
      | srawi | lbzx | lbzux | lhzx | lhzux | lhax | lhaux | lwzx | lwzux | stbx | stbux | sthx | sthux | stwx
      | stwux | lhbrx | lwbrx | sthbrx | stwbrx | lswi | lswx | stswi | stswx | lfsx | lfsux | lfdx | lfdux
      | stfsx | stfsux | stfdx | stfdux | stfiwx | tw | mfcr | mcrxr | mfmsr | mtmsr | mfspr | mtspr | mftb
      | lwarx | icbi =>
    change decode (formX _ _ _ _ _ _) = _
    rw [decode_eq_table, (fields_formX ..).1]
    change decode31 _ = _
    rw [decode31_eq_table, fld_formX_xo]
    conv_lhs => whnf
    simp only [fields_formX, extractLsb'_crfSlot, extractLsb'_crfLSlot, getLsbD_crfLSlot, sprOf_formX]
  case sync | eieio | rfi | isync => rfl
  case rlwinm | rlwnm | rlwimi =>
    change decode (formA _ _ _ _ _ _ _) = _
    rw [decode_eq_table, (fields_formA ..).1]
    conv_lhs => whnf
    simp only [fields_formA]
  case fadd | fsub | fmul | fdiv | fmadd | fmsub | fnmadd | fnmsub =>
    change decode (formA _ _ _ _ _ _ _) = _
    rw [decode_eq_table, (fields_formA ..).1]
    change (if _ then _ else _) = _
    rw [getLsbD_formA_5]
    change decode63a _ = _
    rw [decode63a_eq_table, fld_formA_xo]
    conv_lhs => whnf
    simp only [fields_formA]
  case fadds | fsubs | fmuls | fdivs | fmadds | fmsubs | fnmadds | fnmsubs =>
    change decode (formA _ _ _ _ _ _ _) = _
    rw [decode_eq_table, (fields_formA ..).1]
    change decode59 _ = _
    rw [decode59_eq_table, fld_formA_xo]
    conv_lhs => whnf
    simp only [fields_formA]
  case frsp | fctiw | fctiwz | fcmpu | fcmpo | mffs | mcrfs | mtfsfi | mtfsb0 | mtfsb1 | fmr | fneg | fabs
      | fnabs =>
    change decode (formX _ _ _ _ _ _) = _
    rw [decode_eq_table, (fields_formX ..).1]
    change (if _ then _ else _) = _
    rw [getLsbD_formX_5]
    change decode63x _ = _
    rw [decode63x_eq_table, fld_formX_xo]
    conv_lhs => whnf
    simp only [fields_formX, extractLsb'_crfSlot, extractLsb'_immSlot]
  case mtfsf =>
    change decode (formXFL _ _ _ _ _) = _
    rw [decode_eq_table, (fields_formXFL ..).1]
    change (if _ then _ else _) = _
    rw [getLsbD_formXFL_5]
    change decode63x _ = _
    rw [decode63x_eq_table, fld_formXFL_xo]
    conv_lhs => whnf
    simp only [fields_formXFL]
  case b =>
    change decode (formI _ _ _ _) = _
    rw [decode_eq_table, (fields_formI ..).1]
    conv_lhs => whnf
    simp only [fields_formI]
  case bc =>
    change decode (formB _ _ _ _ _ _) = _
    rw [decode_eq_table, (fields_formB ..).1]
    conv_lhs => whnf
    simp only [fields_formB]
  case bclr | bcctr | crand | cror | crxor | crnand | crnor | creqv | crandc | crorc | mcrf =>
    change decode (formX _ _ _ _ _ _) = _
    rw [decode_eq_table, (fields_formX ..).1]
    change decode19 _ = _
    rw [decode19_eq_table, fld_formX_xo]
    conv_lhs => whnf
    simp only [fields_formX, extractLsb'_crfSlot]
  case sc =>
    change decode (formX _ _ _ _ _ _) = _
    rw [decode_eq_table, (fields_formX ..).1]
    rfl
  case mtcrf =>
    change decode (formMtcrf _ _ _ _) = _
    rw [decode_eq_table, (fields_formMtcrf ..).1]
    change decode31 _ = _
    rw [decode31_eq_table, fld_formMtcrf_xo]
    conv_lhs => whnf
    simp only [fields_formMtcrf]

/-- Settles O2: the decoder evaluates on the eight words. -/
theorem decodeOfWrittenOutWords : Obligations.DecodeOfWrittenOutWords := by
  unfold Obligations.DecodeOfWrittenOutWords
  refine ⟨?_, ?_, ?_, ?_, ?_, ?_, ?_, ?_⟩ <;> rfl

/-- Settles O3: the primary opcode has no arm, or its arm asks for the bit. -/
theorem unusedOpcodesAreRejected : Obligations.UnusedOpcodesAreRejected := by
  refine ⟨fun w h => ?_, fun w hp hb => ?_, fun w hp hx hb => ?_⟩
  · rw [decode]
    change (fld w 26 6).toNat ∈ _ at h
    generalize (fld w 26 6).toNat = n at h ⊢
    fin_cases h <;> rfl
  · change w.getLsbD 1 = false at hb
    rw [decode, show (fld w 26 6).toNat = 17 from hp]
    change (if _ then _ else _) = _
    rw [hb]
    rfl
  · change w.getLsbD 0 = false at hb
    rw [decode, show (fld w 26 6).toNat = 31 from hp]
    change decode31 _ = _
    rw [decode31, show (fld w 1 10).toNat = 150 from hx]
    change (if _ then _ else _) = _
    rw [hb]
    rfl

end Sys2Proof.Proofs

/-! The ends of the instructions: every arm of `exec` is one of the shared operations of the families. What holds of
every instruction is proved of each of these once. -/

namespace Sys2Proof.Proofs

open Sys2Proof Sys2Proof.Machine Sys2Proof.Laws

/-- The answers that the shared operations of the families give in a state. -/
inductive Ends (s : State) : Result → Prop
  | arith (rD v ov oe rc) : Ends s (arith rD v ov oe rc s)
  | arithCarry (rD x oe rc) : Ends s (arithCarry rD x oe rc s)
  | divideUndefined (rD oe rc) : Ends s (divideUndefined rD oe rc s)
  | compareWith (crfD order) : Ends s (compareWith crfD order s)
  | logical (rA v rc) : Ends s (logical rA v rc s)
  | rotated (rA v rc) : Ends s (rotated rA v rc s)
  | shiftedAlgebraic (rA x rc) : Ends s (shiftedAlgebraic rA x rc s)
  | fpArith (op p neg frD rc) : Ends s (fpArith op p neg frD rc s)
  | frsp (frD frB rc) : Ends s (execFrsp frD frB rc s)
  | convertToIntWord (mode frD frB rc) : Ends s (convertToIntWord mode frD frB rc s)
  | fcmpu (crfD frA frB) : Ends s (execFcmpu crfD frA frB s)
  | fcmpo (crfD frA frB) : Ends s (execFcmpo crfD frA frB s)
  | mffs (frD rc) : Ends s (execMffs frD rc s)
  | mcrfs (crfD crfS) : Ends s (execMcrfs crfD crfS s)
  | moveToFpscr (f : State → Word) (rc) : Ends s (fpAvailable s fun s => movedToFpscr (f s) rc s)
  | loadInt (i n ext rD update ea) : Ends s (loadInt i n ext rD update ea s)
  | storeInt (i n v update ea) : Ends s (storeInt i n v update ea s)
  | alignmentOf (i loads ea) : Ends s (alignmentOf i loads ea s)
  | loadRegs (i rD ea n) : Ends s (loadRegs i rD ea n s)
  | storeRegs (i rS ea n) : Ends s (storeRegs i rS ea n s)
  | loadFree (rD) : Ends s (nextInstr (s.draw.2.setR rD (s.draw.1.setWidth 32)))
  | loadSingle (i frD update ea) : Ends s (loadSingle i frD update ea s)
  | loadDouble (i frD update ea) : Ends s (loadDouble i frD update ea s)
  | storeSingle (i frS update ea) : Ends s (storeSingle i frS update ea s)
  | storeDouble (i frS update ea) : Ends s (storeDouble i frS update ea s)
  | stfiwx (frS rA rB) : Ends s (execStfiwx frS rA rB s)
  | fpMove (v frD rc) : Ends s (fpMove v frD rc s)
  | b (li aa lk) : Ends s (execB li aa lk s)
  | bc (bo bi bd aa lk) : Ends s (execBc bo bi bd aa lk s)
  | bclr (bo bi lk) : Ends s (execBclr bo bi lk s)
  | bcctr (bo bi lk) : Ends s (execBcctr bo bi lk s)
  | writeCr (v) : Ends s (nextInstr { s with cr := v })
  | sc : Ends s (execSc s)
  | rfi : Ends s (execRfi s)
  | trap : Ends s (trapException s)
  | nothing : Ends s (nextInstr s)
  | writeGpr (rD v) : Ends s (nextInstr (s.setR rD v))
  | mcrxr (crfD) : Ends s (execMcrxr crfD s)
  | mfmsr (rD) : Ends s (execMfmsr rD s)
  | mtmsr (rS) : Ends s (execMtmsr rS s)
  | mfspr (rD spr) : Ends s (execMfspr rD spr s)
  | mtspr (spr rS) : Ends s (execMtspr spr rS s)
  | mftb (rD tbr) : Ends s (execMftb rD tbr s)
  | isync : Ends s (nextInstr s.flushFetch)
  | lwarx (rD rA rB) : Ends s (execLwarx rD rA rB s)
  | stwcx (rS rA rB) : Ends s (execStwcx rS rA rB s)
  | icbi (rA rB) : Ends s (execIcbi rA rB s)
  | refusedLoad : Ends s (.refused .invalidLoadString)

theorem ends_execDivw (rD rA rB : Reg) (oe rc : Bool) (s : State) : Ends s (execDivw rD rA rB oe rc s) := by
  unfold execDivw
  dsimp only
  split
  · exact .divideUndefined ..
  · exact .arith ..

theorem ends_execDivwu (rD rA rB : Reg) (oe rc : Bool) (s : State) : Ends s (execDivwu rD rA rB oe rc s) := by
  unfold execDivwu
  dsimp only
  split
  · exact .divideUndefined ..
  · exact .arith ..

theorem ends_execLmw (rD : Reg) (d : BitVec 16) (rA : Reg) (s : State) : Ends s (execLmw rD d rA s) := by
  unfold execLmw
  dsimp only
  split
  · exact .alignmentOf ..
  · exact .loadRegs ..

theorem ends_execStmw (rS : Reg) (d : BitVec 16) (rA : Reg) (s : State) : Ends s (execStmw rS d rA s) := by
  unfold execStmw
  dsimp only
  split
  · exact .alignmentOf ..
  · exact .storeRegs ..

theorem ends_execLswi (rD rA : Reg) (nb : BitVec 5) (s : State) : Ends s (execLswi rD rA nb s) := by
  unfold execLswi
  dsimp only
  split
  · exact .alignmentOf ..
  · exact .loadRegs ..

theorem ends_execLswx (rD rA rB : Reg) (s : State) : Ends s (execLswx rD rA rB s) := by
  unfold execLswx
  dsimp only
  split
  · exact .alignmentOf ..
  · split
    · split
      · exact .refusedLoad
      · exact .loadFree ..
    · split
      · exact .refusedLoad
      · exact .loadRegs ..

theorem ends_execStswi (rS rA : Reg) (nb : BitVec 5) (s : State) : Ends s (execStswi rS rA nb s) := by
  unfold execStswi
  split
  · exact .alignmentOf ..
  · exact .storeRegs ..

theorem ends_execStswx (rS rA rB : Reg) (s : State) : Ends s (execStswx rS rA rB s) := by
  unfold execStswx
  split
  · exact .alignmentOf ..
  · exact .storeRegs ..

theorem ends_execTw (trapOn : BitVec 5) (rA rB : Reg) (s : State) : Ends s (execTw trapOn rA rB s) := by
  unfold execTw
  split
  · exact .trap
  · exact .nothing

theorem ends_execTwi (trapOn : BitVec 5) (rA : Reg) (simm : BitVec 16) (s : State) :
    Ends s (execTwi trapOn rA simm s) := by
  unfold execTwi
  split
  · exact .trap
  · exact .nothing

theorem ends_execMtfsfi (crfD : BitVec 3) (imm : BitVec 4) (rc : Bool) (s : State) :
    Ends s (execMtfsfi crfD imm rc s) := by
  unfold execMtfsfi
  exact .moveToFpscr _ rc

theorem ends_execMtfsf (fm : BitVec 8) (frB : Reg) (rc : Bool) (s : State) : Ends s (execMtfsf fm frB rc s) := by
  unfold execMtfsf
  exact .moveToFpscr _ rc

theorem ends_execMtfsb0 (crbD : BitVec 5) (rc : Bool) (s : State) : Ends s (execMtfsb0 crbD rc s) := by
  unfold execMtfsb0
  exact .moveToFpscr _ rc

theorem ends_execMtfsb1 (crbD : BitVec 5) (rc : Bool) (s : State) : Ends s (execMtfsb1 crbD rc s) := by
  unfold execMtfsb1
  exact .moveToFpscr _ rc

theorem ends_loadForm {i : Instr} {s : State} {x : LoadForm} (h : loadForm s i = some x) : Ends s (exec i s) := by
  obtain ⟨ext, hx⟩ := exec_loadForm h
  rw [hx]
  exact .loadInt ..

theorem ends_storeForm {i : Instr} {s : State} {x : StoreForm} (h : storeForm s i = some x) : Ends s (exec i s) := by
  obtain ⟨v, hx⟩ := exec_storeForm h
  rw [hx]
  exact .storeInt ..

theorem ends_fpLoadSingle {i : Instr} {s : State} {x : FpAccessForm} (h : fpLoadSingle s i = some x) : Ends s (exec i s) := by
  rw [exec_fpLoadSingle h]
  exact .loadSingle ..

theorem ends_fpLoadDouble {i : Instr} {s : State} {x : FpAccessForm} (h : fpLoadDouble s i = some x) : Ends s (exec i s) := by
  rw [exec_fpLoadDouble h]
  exact .loadDouble ..

theorem ends_fpStoreSingle {i : Instr} {s : State} {x : FpAccessForm} (h : fpStoreSingle s i = some x) : Ends s (exec i s) := by
  rw [exec_fpStoreSingle h]
  exact .storeSingle ..

theorem ends_fpStoreDouble {i : Instr} {s : State} {x : FpAccessForm} (h : fpStoreDouble s i = some x) : Ends s (exec i s) := by
  rw [exec_fpStoreDouble h]
  exact .storeDouble ..

/-- Every instruction ends in one of the shared operations. -/
theorem exec_ends (i : Instr) (s : State) : Ends s (exec i s) := by
  cases i
  case divw => exact ends_execDivw ..
  case divwu => exact ends_execDivwu ..
  case addi | addis | add | subf | neg | mulli | mullw | mulhw | mulhwu => exact .arith ..
  case addic | addicRc | addc | adde | addme | addze | subfic | subfc | subfe | subfme | subfze => exact .arithCarry ..
  case cmpi | cmp | cmpli | cmpl => exact .compareWith ..
  case andiRc | andisRc | ori | oris | xori | xoris | and | or | xor | nand | nor | eqv | andc | orc | extsb | extsh
      | cntlzw => exact .logical ..
  case rlwinm | rlwnm | rlwimi | slw | srw => exact .rotated ..
  case sraw | srawi => exact .shiftedAlgebraic ..
  case fadd | fadds | fsub | fsubs | fmul | fmuls | fdiv | fdivs | fmadd | fmadds | fmsub | fmsubs | fnmadd | fnmadds
      | fnmsub | fnmsubs => exact .fpArith ..
  case frsp => exact .frsp ..
  case fctiw | fctiwz => exact .convertToIntWord ..
  case fcmpu => exact .fcmpu ..
  case fcmpo => exact .fcmpo ..
  case mffs => exact .mffs ..
  case mcrfs => exact .mcrfs ..
  case mtfsfi => exact ends_execMtfsfi ..
  case mtfsf => exact ends_execMtfsf ..
  case mtfsb0 => exact ends_execMtfsb0 ..
  case mtfsb1 => exact ends_execMtfsb1 ..
  case lbz | lbzu | lbzx | lbzux | lhz | lhzu | lhzx | lhzux | lha | lhau | lhax | lhaux | lwz | lwzu | lwzx | lwzux
      | lhbrx | lwbrx => exact ends_loadForm rfl
  case stb | stbu | stbx | stbux | sth | sthu | sthx | sthux | stw | stwu | stwx | stwux | sthbrx | stwbrx => exact ends_storeForm rfl
  case lmw => exact ends_execLmw ..
  case stmw => exact ends_execStmw ..
  case lswi => exact ends_execLswi ..
  case lswx => exact ends_execLswx ..
  case stswi => exact ends_execStswi ..
  case stswx => exact ends_execStswx ..
  case lfs | lfsu | lfsx | lfsux => exact ends_fpLoadSingle rfl
  case lfd | lfdu | lfdx | lfdux => exact ends_fpLoadDouble rfl
  case stfs | stfsu | stfsx | stfsux => exact ends_fpStoreSingle rfl
  case stfd | stfdu | stfdx | stfdux => exact ends_fpStoreDouble rfl
  case stfiwx => exact .stfiwx ..
  case fmr | fneg | fabs | fnabs => exact .fpMove ..
  case b => exact .b ..
  case bc => exact .bc ..
  case bclr => exact .bclr ..
  case bcctr => exact .bcctr ..
  case crand | cror | crxor | crnand | crnor | creqv | crandc | crorc | mcrf | mtcrf => exact .writeCr _
  case sc => exact .sc
  case rfi => exact .rfi
  case tw => exact ends_execTw ..
  case twi => exact ends_execTwi ..
  case mfcr => exact .writeGpr ..
  case mcrxr => exact .mcrxr _
  case mfmsr => exact .mfmsr _
  case mtmsr => exact .mtmsr _
  case mfspr => exact .mfspr ..
  case mtspr => exact .mtspr ..
  case mftb => exact .mftb ..
  case sync | eieio => exact .nothing
  case isync => exact .isync
  case lwarx => exact .lwarx ..
  case stwcx => exact .stwcx ..
  case icbi => exact .icbi ..

end Sys2Proof.Proofs

/-! What every operation of the machine keeps (10_state.md R31, R36, R41; 20_memory.md R168; 62_debug_mode_and_port.md R750): the
parts of the invariant, each by itself, through the shared operations. -/

namespace Sys2Proof.Proofs

open Sys2Proof Sys2Proof.Machine Sys2Proof.Laws

/-- `t` keeps each part of the invariant that `s` has. A part whose registers an update does not touch is kept by `id`. -/
structure Keeps (s t : State) : Prop where
  pc : s.pcAligned → t.pcAligned
  mem : s.memoryCanonical → t.memoryCanonical
  msr : within s.msr msrMask → within t.msr msrMask
  xer : within s.xer xerMask → within t.xer xerMask
  fpecr : within s.fpecr fpecrMask → within t.fpecr fpecrMask
  iccst : within s.iccst iccstMask → within t.iccst iccstMask
  cmpA : within s.cmpA cmpIMask → within t.cmpA cmpIMask
  cmpB : within s.cmpB cmpIMask → within t.cmpB cmpIMask
  cmpC : within s.cmpC cmpIMask → within t.cmpC cmpIMask
  cmpD : within s.cmpD cmpIMask → within t.cmpD cmpIMask
  ecr : within s.ecr causeMask → within t.ecr causeMask
  der : within s.der causeMask → within t.der causeMask
  countA : within s.countA countMask → within t.countA countMask
  countB : within s.countB countMask → within t.countB countMask
  lctrl1 : within s.lctrl1 lctrl1Mask → within t.lctrl1 lctrl1Mask
  lctrl2 : within s.lctrl2 lctrl2Mask → within t.lctrl2 lctrl2Mask
  ictrl : within s.ictrl ictrlMask → within t.ictrl ictrlMask
  fpscr : s.fpscrSummed → t.fpscrSummed
  cache : s.cacheSound → t.cacheSound
  debug : s.debugOnlyEnabled → t.debugOnlyEnabled

theorem Keeps.refl (s : State) : Keeps s s :=
  ⟨id, id, id, id, id, id, id, id, id, id, id, id, id, id, id, id, id, id, id, id⟩

theorem Keeps.trans {s t u : State} (h : Keeps s t) (k : Keeps t u) : Keeps s u where
  pc := k.pc ∘ h.pc
  mem := k.mem ∘ h.mem
  msr := k.msr ∘ h.msr
  xer := k.xer ∘ h.xer
  fpecr := k.fpecr ∘ h.fpecr
  iccst := k.iccst ∘ h.iccst
  cmpA := k.cmpA ∘ h.cmpA
  cmpB := k.cmpB ∘ h.cmpB
  cmpC := k.cmpC ∘ h.cmpC
  cmpD := k.cmpD ∘ h.cmpD
  ecr := k.ecr ∘ h.ecr
  der := k.der ∘ h.der
  countA := k.countA ∘ h.countA
  countB := k.countB ∘ h.countB
  lctrl1 := k.lctrl1 ∘ h.lctrl1
  lctrl2 := k.lctrl2 ∘ h.lctrl2
  ictrl := k.ictrl ∘ h.ictrl
  fpscr := k.fpscr ∘ h.fpscr
  cache := k.cache ∘ h.cache
  debug := k.debug ∘ h.debug

theorem Keeps.ite {s t u : State} {c : Prop} [Decidable c] (h : Keeps s t) (k : Keeps s u) :
    Keeps s (if c then t else u) := by
  split
  · exact h
  · exact k

/-! Addresses of instructions. -/

theorem aligned_iff (a : Word) : a &&& 3#32 = 0 ↔ a.toNat % 4 = 0 := by
  rw [← BitVec.toNat_inj, BitVec.toNat_and]
  change a.toNat &&& (2 ^ 2 - 1) = 0 ↔ _
  rw [Nat.and_two_pow_sub_one_eq_mod]

theorem aligned_add {a b : Word} (ha : a &&& 3#32 = 0) (hb : b &&& 3#32 = 0) : (a + b) &&& 3#32 = 0 := by
  rw [aligned_iff] at *
  rw [BitVec.toNat_add]
  omega

theorem aligned_mask (a : Word) : a &&& 0xFFFFFFFC#32 &&& 3#32 = 0 := by
  rw [BitVec.and_assoc]
  exact BitVec.and_zero

/-- A displacement of words: two zeros below, and the sign above. -/
theorem aligned_offset {n : Nat} (d : BitVec n) (h : n + 2 ≤ 32) : ((d ++ 0#2 : BitVec (n + 2)).signExtend 32) &&& 3#32 = 0 := by
  refine BitVec.eq_of_getLsbD_eq fun k hk => ?_
  rw [BitVec.getLsbD_and, BitVec.getLsbD_signExtend]
  by_cases h2 : k < 2
  · rw [if_pos (by omega), BitVec.getLsbD_append]
    simp [h2]
  · have : (3#32).getLsbD k = false := by
      interval_cases k <;> first | omega | rfl
    simp [this]

theorem aligned_vector (m : Word) (x : Exc) : (vectorBase m + x.offset) &&& 3#32 = 0 := by
  refine aligned_add ?_ (by cases x <;> rfl)
  unfold vectorBase
  split <;> rfl

theorem keeps_advance (s : State) : Keeps s s.advance :=
  { Keeps.refl s with pc := fun h => aligned_add h rfl }

/-! Registers and flags. -/

theorem keeps_setR (s : State) (n : Reg) (v : Word) : Keeps s (s.setR n v) := { Keeps.refl s with }
theorem keeps_setF (s : State) (n : Reg) (v : Dword) : Keeps s (s.setF n v) := { Keeps.refl s with }
theorem keeps_setCr (s : State) (f : BitVec 3) (v : BitVec 4) : Keeps s (s.setCr f v) := { Keeps.refl s with }
theorem keeps_draw (s : State) : Keeps s s.draw.2 := { Keeps.refl s with }
theorem keeps_fresh (s : State) : Keeps s s.fresh := { Keeps.refl s with }
theorem keeps_record (s : State) (c : Cycle) (w x : Bool) (bs : List Byte) : Keeps s (s.record c w x bs) := { Keeps.refl s with }
theorem keeps_remark (s : State) (f : StaleWord → StaleWord) : Keeps s (s.remark f) := { Keeps.refl s with }
theorem keeps_flushQueue (s : State) : Keeps s s.flushQueue := { Keeps.refl s with }

theorem keeps_reservation (s : State) (r : Option (BitVec 27)) : Keeps s { s with reservation := r } := { Keeps.refl s with }

theorem keeps_setCA (s : State) (c : Bool) : Keeps s (s.setCA c) :=
  { Keeps.refl s with xer := within_setBit (by decide) (by decide) }

theorem keeps_setOV (s : State) (c : Bool) : Keeps s (s.setOV c) :=
  { Keeps.refl s with xer := fun h => within_setBit (by decide) (by decide) (within_setBit (by decide) (by decide) h) }

theorem keeps_setOVIf (s : State) (oe ov : Bool) : Keeps s (s.setOVIf oe ov) := by
  unfold State.setOVIf
  exact (keeps_setOV s ov).ite (.refl s)

theorem keeps_recordIf (s : State) (rc : Bool) (v : Word) : Keeps s (s.recordIf rc v) := by
  unfold State.recordIf
  exact (keeps_setCr ..).ite (.refl s)

theorem keeps_recordFp (s : State) (rc : Bool) : Keeps s (s.recordFp rc) := by
  unfold State.recordFp
  exact (keeps_setCr ..).ite (.refl s)

theorem keeps_setCauses (s : State) (dnc dnb dna tr : Bool) : Keeps s (s.setCauses dnc dnb dna tr) := by
  unfold State.setCauses
  exact Keeps.ite { Keeps.refl s with fpecr := fun h => within_insertBits h rfl } (.refl s)

theorem keeps_fpSummary (s : State) (f : Word) : Keeps s { s with fpscr := fpSummary f } :=
  { Keeps.refl s with fpscr := fun _ => fpscrSummed_fpSummary _ f rfl }

theorem keeps_fpSignal (s : State) (f set : Word) : Keeps s { s with fpscr := fpSignal f set } := keeps_fpSummary s _

theorem keeps_updateBase (s : State) (update : Option Reg) (ea : Word) : Keeps s (s.updateBase update ea) := by
  cases update with
  | none => exact .refl s
  | some rA => exact keeps_setR ..

/-! Memory. -/

theorem keeps_noteStale (s : State) (a o n : Word) : Keeps s (s.noteStale a o n) := by
  unfold State.noteStale
  exact (Keeps.refl s).ite { Keeps.refl s with }

theorem keeps_writeBytes (s : State) (a : Word) (bs : List Byte) : Keeps s (s.writeBytes a bs) := by
  refine Keeps.trans (t := { s with mem := putBytes s.mem a bs }) { Keeps.refl s with mem := putBytes_wf bs s.mem a } ?_
  exact keeps_noteStale ..

theorem keeps_busWrite (s : State) (a : Word) (v : Byte) : Keeps s (s.busWrite a v) := by
  rw [busWrite_frame]
  exact { Keeps.refl s with mem := busWrite_wf s a v }

theorem keeps_busWrites (s : State) (l : List Intrusion) : Keeps s (s.busWrites l) := by
  rw [busWrites_frame]
  exact { Keeps.refl s with mem := busWrites_wf l s }

theorem keeps_intrude (s : State) : Keeps s s.intrude := by
  unfold State.intrude
  refine (Keeps.refl s).ite (Keeps.trans ?_ (keeps_busWrites ..))
  exact { Keeps.refl s with }

theorem keeps_settle (s : State) : Keeps s s.settle :=
  Keeps.trans (t := { s with intrusions := [] }) { Keeps.refl s with } (keeps_busWrites ..)

theorem keeps_writeFailed (s : State) (a : Word) (bs : List Byte) : Keeps s (s.writeFailed a bs) :=
  (keeps_draw s).trans (keeps_writeBytes ..)

/-- The state an access leaves. -/
def accessState {α : Type} : Access α → State
  | .done _ s => s
  | .busError _ s => s

theorem keeps_readCycles (x : Bool) : ∀ (cs : List Cycle) (s : State), Keeps s (accessState (readCycles x cs s))
  | [], s => .refl s
  | c :: cs, s => by
    have ih := keeps_readCycles x cs (s.intrude.record c false x (s.intrude.bytesAt c.addr c.size))
    have hs := (keeps_intrude s).trans ((keeps_record s.intrude c false x (s.intrude.bytesAt c.addr c.size)).trans ih)
    rw [readCycles]
    split
    · exact keeps_intrude s
    · dsimp only
      split
      all_goals
        next h =>
        rw [h] at hs
        exact hs

theorem keeps_writeCycles (x : Bool) : ∀ (cs : List Cycle) (bs : List Byte) (s : State),
    Keeps s (accessState (writeCycles x cs bs s))
  | [], _, s => .refl s
  | c :: cs, bs, s => by
    rw [writeCycles]
    split
    · exact (keeps_intrude s).trans (keeps_writeFailed ..)
    · exact (keeps_intrude s).trans ((keeps_writeBytes ..).trans ((keeps_record ..).trans (keeps_writeCycles x cs _ _)))

theorem keeps_load (s : State) (ea : Word) (n : Nat) (x : Bool) : Keeps s (accessState (s.load ea n x)) := by
  have h := keeps_readCycles x (s.operandCycles ea n) s
  unfold State.load
  split
  all_goals
    next e =>
    rw [e] at h
    exact h

theorem keeps_store (s : State) (ea : Word) (n : Nat) (v : Dword) (x : Bool) : Keeps s (accessState (s.store ea n v x)) :=
  keeps_writeCycles ..

theorem keeps_putRegs : ∀ (k : Nat) (r : Reg) (bs : List Byte) (s : State), Keeps s (putRegs k r bs s)
  | 0, _, _, s => .refl s
  | k + 1, r, bs, s => (keeps_setR s r _).trans (keeps_putRegs k (r + 1) (bs.drop 4) _)

/-! Exceptions. -/

theorem keeps_takeVia (s : State) (x : Exc) {b : Nat} (srr0 : Word) (info : BitVec 16) (hb : b < 32)
    (hm : bit causeMask b = true) : Keeps s (s.takeVia x b srr0 info) := by
  cases hd : s.inDebug
  case true =>
    rw [takeVia_inDebug x b srr0 info hd]
    exact { Keeps.refl s with ecr := within_setBit hb hm }
  case false =>
    by_cases he : s.debugEnabled = true ∧ bit s.der b = true
    · obtain ⟨hin, hpc⟩ := takeVia_debug x srr0 info hd he.1 he.2
      rw [takeVia_eq s x b srr0 info hd, hin, hpc]
      exact { Keeps.refl s with msr := fun _ => within_entryMsr x s.msr, ecr := within_setBit hb hm, debug := fun _ _ => he.1 }
    · obtain ⟨hin, hpc⟩ := takeVia_vector x srr0 info hd he
      rw [takeVia_eq s x b srr0 info hd, hin, hpc]
      exact {
    Keeps.refl s with
        pc := fun _ => aligned_vector s.msr x, msr := fun _ => within_entryMsr x s.msr, ecr := within_setBit hb hm
        debug := fun _ h => nomatch h }

theorem keeps_take (s : State) (x : Exc) (srr0 : Word) (info : BitVec 16) : Keeps s (s.take x srr0 info) :=
  keeps_takeVia s x srr0 info (by cases x <;> decide) (by cases x <;> decide)

theorem keeps_fpEnabledTest (s : State) (srr0 : Word) (info : BitVec 16) : Keeps s (s.fpEnabledTest srr0 info) := by
  unfold State.fpEnabledTest
  exact (keeps_take ..).ite (.refl s)

theorem keeps_machineCheck {s : State} (info : BitVec 16) {update : State → State} (h : Keeps s (update s)) :
    Keeps s (s.machineCheck info update) := by
  unfold State.machineCheck
  refine (keeps_take ..).ite ((h.trans (keeps_take ..)).ite ((h.trans ?_).ite ?_))
  · exact keeps_takeVia _ _ _ _ (by decide) (by decide)
  · exact { Keeps.refl s with ecr := within_setBit (by decide) (by decide) }

theorem keeps_returnFromException (s : State) : Keeps s s.returnFromException := by
  unfold State.returnFromException
  refine Keeps.trans ?_ ((keeps_flushQueue _).trans (keeps_fpEnabledTest ..))
  exact {
    Keeps.refl s with
    pc := fun _ => aligned_mask s.srr0
    msr := fun _ => within_and _ _
    debug := fun h hd => h (Bool.and_eq_true_iff.mp hd).1 }

/-! Floating-point results. -/

theorem keeps_deliverResult (s : State) (frD : Reg) (rc : Bool) (r : FpResult) : Keeps s (s.deliverResult frD rc r) := by
  unfold State.deliverResult
  dsimp only
  refine Keeps.trans ?_ ((keeps_setCauses ..).trans (keeps_recordFp ..))
  refine Keeps.trans ?_ (keeps_fpSignal ..)
  have hd : Keeps s (if r.fr.isNone || r.fi.isNone then s.draw else (0, s)).2 := by
    split
    · exact keeps_draw s
    · exact .refl s
  split
  · exact hd.trans (keeps_setF ..)
  · exact hd

/-! The answers of a meaning. -/

/-- Every next state that an answer gives keeps the parts of the invariant. -/
structure Keeping (s : State) (r : Result) : Prop where
  keeps : ∀ t, r = .next t → Keeps s t

theorem keeping_next {s t : State} (h : Keeps s t) : Keeping s (.next t) :=
  ⟨by rintro _ ⟨⟩; exact h⟩

theorem keeping_refused (s : State) (r : Refusal) : Keeping s (.refused r) :=
  ⟨by intro t h; cases h⟩

theorem keeping_nextInstr {s t : State} (h : Keeps s t) : Keeping s (nextInstr t) := keeping_next (h.trans (keeps_advance t))

theorem Keeping.after {s t : State} {r : Result} (h : Keeps s t) (k : Keeping t r) : Keeping s r :=
  ⟨fun u hu => h.trans (k.keeps u hu)⟩

theorem keeping_raise (x : Exc) (s : State) : Keeping s (raise x s) := keeping_next (keeps_take ..)

theorem keeping_finishFp (s : State) : Keeping s (finishFp s) := by
  unfold finishFp
  refine keeping_next ((keeps_advance s).trans ?_)
  exact (keeps_fpEnabledTest ..).ite (.refl _)

theorem keeping_supervisorOnly {s : State} {k : State → Result} (h : Keeping s (k s)) : Keeping s (supervisorOnly s k) := by
  unfold supervisorOnly
  split
  · exact keeping_next (keeps_take ..)
  · exact h

theorem keeping_fpAvailable {s : State} {k : State → Result} (h : Keeping s (k s)) : Keeping s (fpAvailable s k) := by
  unfold fpAvailable
  split
  · exact h
  · exact keeping_raise ..

theorem keeping_sprAccess {n : BitVec 10} {implemented : Bool} {s : State} {k : State → Result} (h : Keeping s (k s)) :
    Keeping s (sprAccess n implemented s k) := by
  obtain hk | hk | hk := sprAccess_cases n implemented s k <;> rw [hk]
  · exact h
  · exact keeping_next (keeps_take ..)
  · exact keeping_raise ..

theorem keeping_dataMachineCheck (i : Instr) (ea : Word) (s : State) : Keeping s (dataMachineCheck i ea s) :=
  keeping_next (keeps_machineCheck _ { Keeps.refl s with })

theorem keeping_alignmentOf (i : Instr) (loads : Option (Reg → Bool)) (ea : Word) (s : State) :
    Keeping s (alignmentOf i loads ea s) := by
  unfold alignmentOf
  split
  · exact keeping_raise ..
  · refine keeping_next (Keeps.trans ?_ (keeps_take ..))
    exact { Keeps.refl s with }

/-! The two ends of an access. -/

theorem keeps_done {α : Type} {s t : State} {x : Access α} {v : α} (hx : Keeps s (accessState x)) (h : x = .done v t) :
    Keeps s t := by
  rw [h] at hx
  exact hx

theorem keeping_busError {α : Type} {s t : State} {x : Access α} {e : Word} (i : Instr) (hx : Keeps s (accessState x))
    (h : x = .busError e t) : Keeping s (dataMachineCheck i e t) := by
  rw [h] at hx
  exact .after hx (keeping_dataMachineCheck ..)

end Sys2Proof.Proofs

/-! What the cache operations and the special registers keep (20_memory.md R168 to R177; 49_processor_control_sync_cache.md R588 to
R591). -/

namespace Sys2Proof.Proofs

open Sys2Proof Sys2Proof.Machine Sys2Proof.Laws

/-! Sound sets. -/

/-- A set of the cache as `cacheSound` asks it. -/
def soundSet (x : CacheSet) : Prop :=
  ¬(x.way0.valid = true ∧ x.way1.valid = true ∧ x.way0.tag = x.way1.tag) ∧
  (x.way0.lock = true → x.way0.valid = true) ∧ (x.way1.lock = true → x.way1.valid = true)

/-- The arrays of a sound cache. -/
def soundArrays (c : ICache) : Prop := ∀ k, soundSet (c.setAt k)

theorem cacheSound_iff (s : State) : s.cacheSound ↔ soundArrays s.icache := Iff.rfl

theorem soundArrays_putSet {c : ICache} {k : BitVec 7} {x : CacheSet} (hc : soundArrays c) (hx : soundSet x) :
    soundArrays (c.putSet k x) := by
  intro j
  rw [setAt_putSet]
  split
  · exact hx
  · exact hc j

theorem soundArrays_buffers {c : ICache} (hc : soundArrays c) (b l : Option LineBuffer) :
    soundArrays { c with burst := b, line := l } := hc

/-- A way whose line is replaced by one with no more lines valid, of the same tag, and whose lock implies that it is valid. -/
theorem soundSet_putWay {x : CacheSet} {w : Bool} {l : CacheLine} (hx : soundSet x) (ht : l.tag = (x.way w).tag)
    (hv : l.valid = true → (x.way w).valid = true) (hl : l.lock = true → l.valid = true) : soundSet (x.putWay w l) := by
  obtain ⟨hne, h0, h1⟩ := hx
  cases w
  case false => exact ⟨fun ⟨a, b, c⟩ => hne ⟨hv a, b, ht ▸ c⟩, hl, h1⟩
  case true => exact ⟨fun ⟨a, b, c⟩ => hne ⟨a, hv b, c.trans ht⟩, h0, hl⟩

/-- A way filled with a line that no way holds. -/
theorem soundSet_fill {x : CacheSet} {a : Word} (w : Bool) {l : CacheLine} (hx : soundSet x) (h : x.hitWay a = none)
    (ht : l.tag = tagOf a) (hl : l.lock = true → l.valid = true) : soundSet (x.putWay w l) := by
  have hmiss : ∀ v, (x.way v).valid = true → (x.way v).tag ≠ tagOf a := by
    intro v hv he
    have := not_hits_of_hitWay_none h v
    simp [CacheLine.hits, hv, he] at this
  obtain ⟨-, h0, h1⟩ := hx
  cases w
  case false => exact ⟨fun ⟨_, b, c⟩ => hmiss true b (c.symm.trans ht), hl, h1⟩
  case true => exact ⟨fun ⟨a, _, c⟩ => hmiss false a (c.trans ht), h0, hl⟩

theorem valid_of_hitWay {x : CacheSet} {a : Word} {w : Bool} (h : x.hitWay a = some w) : (x.way w).valid = true :=
  (Bool.and_eq_true_iff.mp (hits_of_hitWay h)).1

theorem lock_way {x : CacheSet} (hx : soundSet x) (w : Bool) : (x.way w).lock = true → (x.way w).valid = true := by
  cases w
  · exact hx.2.1
  · exact hx.2.2

theorem soundSet_invalidateAll {x : CacheSet} (hx : soundSet x) : soundSet x.invalidateAll := by
  obtain ⟨hne, h0, h1⟩ := hx
  have hvalid : ∀ l : CacheLine, l.invalidate.valid = true → l.valid = true := by
    intro l
    unfold CacheLine.invalidate
    split <;> simp
  have hlock : ∀ l : CacheLine, (l.lock = true → l.valid = true) → l.invalidate.lock = true → l.invalidate.valid = true := by
    intro l hl
    unfold CacheLine.invalidate
    split
    · exact hl
    · next h => exact fun h' => absurd h' h
  have htag : ∀ l : CacheLine, l.invalidate.tag = l.tag := by
    intro l
    unfold CacheLine.invalidate
    split <;> rfl
  refine ⟨fun ⟨a, b, c⟩ => hne ⟨hvalid _ a, hvalid _ b, ?_⟩, hlock _ h0, hlock _ h1⟩
  rw [← htag x.way0, ← htag x.way1]
  exact c

theorem unlock_valid (l : CacheLine) : l.unlock.valid = l.valid := by
  unfold CacheLine.unlock
  split <;> rfl

theorem unlock_tag (l : CacheLine) : l.unlock.tag = l.tag := by
  unfold CacheLine.unlock
  split <;> rfl

theorem unlock_lock {l : CacheLine} (h : l.lock = true → l.valid = true) : l.unlock.lock = true → l.unlock.valid = true := by
  unfold CacheLine.unlock
  split
  · exact nofun
  · exact h

theorem soundSet_unlock {x : CacheSet} (hx : soundSet x) :
    soundSet { x with way0 := x.way0.unlock, way1 := x.way1.unlock } := by
  obtain ⟨hne, h0, h1⟩ := hx
  refine ⟨fun ⟨a, b, c⟩ => hne ⟨?_, ?_, ?_⟩, unlock_lock h0, unlock_lock h1⟩
  · rwa [← unlock_valid]
  · rwa [← unlock_valid]
  · rwa [← unlock_tag, ← unlock_tag x.way1]

theorem soundArrays_map {c : ICache} {f : CacheSet → CacheSet} (hc : soundArrays c) (hf : ∀ x, soundSet x → soundSet (f x))
    (b l : Option LineBuffer) : soundArrays { sets := c.sets.map f, burst := b, line := l } := by
  intro k
  have : ICache.setAt { sets := c.sets.map f, burst := b, line := l } k = f (c.setAt k) := by
    simp [ICache.setAt]
  rw [this]
  exact hf _ (hc k)

/-! Fetching. -/

theorem keeps_cache (s : State) {c : ICache} (h : soundArrays s.icache → soundArrays c) : Keeps s { s with icache := c } :=
  { Keeps.refl s with cache := fun hc => (cacheSound_iff _).mpr (h ((cacheSound_iff s).mp hc)) }

theorem keeps_fillWay (s : State) {a : Word} (w lock : Bool) (h : (s.setFor a).hitWay a = none) : Keeps s (s.fillWay a w lock) := by
  unfold State.fillWay
  refine keeps_cache s fun hc => soundArrays_putSet hc ?_
  exact soundSet_fill w (hc (setOf a)) h rfl fun _ => rfl

theorem keeps_fetchMiss (s : State) {a : Word} (h : (s.setFor a).hitWay a = none) : Keeps s (s.fetchMiss a).state := by
  unfold State.fetchMiss
  have hburst : ∀ b, Keeps s { s with icache := { s.icache with burst := b } } := fun b => keeps_cache s fun hc => hc
  split
  · exact .refl s
  · split
    · exact hburst _
    · dsimp only
      split
      · exact hburst _
      · split
        · exact hburst _
        · exact (hburst _).trans (keeps_fillWay _ _ _ h)

theorem keeps_fetchThrough (s : State) (a : Word) : Keeps s (s.fetchThrough a).state := by
  unfold State.fetchThrough
  split
  · split <;> exact .refl s
  · dsimp only
    split
    · refine keeps_cache s fun hc => ?_
      exact soundArrays_putSet hc (hc (setOf a))
    · next h =>
      split
      · exact keeps_cache s fun hc => hc
      · exact .refl s
      · exact keeps_fetchMiss s h

theorem keeps_predictedFetches : ∀ (n : Nat) (s : State), Keeps s (State.predictedFetches n s)
  | 0, s => .refl s
  | n + 1, s => (keeps_draw s).trans ((keeps_fetchThrough ..).trans (keeps_predictedFetches n _))

theorem keeps_predictedPath (s : State) : Keeps s s.predictedPath := by
  unfold State.predictedPath
  split
  · exact (keeps_draw s).trans (keeps_predictedFetches ..)
  · exact .refl s

theorem keeps_fetchAt (s : State) (a : Word) : Keeps s (s.fetchAt a).state := by
  have h := keeps_fetchThrough s a
  unfold State.fetchAt
  split
  · next e =>
    rw [e] at h
    exact h
  · next e =>
    rw [e] at h
    split
    · exact h.trans (keeps_predictedPath _)
    · exact h.trans ((keeps_draw _).trans (keeps_predictedPath _))

/-! Commands. -/

theorem keeps_invalidateBlock (s : State) (a : Word) : Keeps s (s.invalidateBlock a) := by
  unfold State.invalidateBlock
  split
  · exact .refl s
  · next hunlocked =>
    refine Keeps.trans ?_ (keeps_remark ..)
    refine keeps_cache s fun hc => soundArrays_buffers ?_ _ _
    split
    · next w hw =>
      have hl : ((s.setFor a).way w).lock = false := by
        simpa [State.lockedLine, hw] using hunlocked
      refine soundArrays_putSet hc (soundSet_putWay (hc (setOf a)) ?_ ?_ ?_) <;>
        rw [CacheLine.invalidate, hl]
      · rfl
      · exact nofun
      · exact fun h => absurd h (by simp)
    · exact hc

theorem keeps_invalidateAll (s : State) : Keeps s s.invalidateAll := by
  unfold State.invalidateAll
  refine Keeps.trans (keeps_remark s _) (keeps_cache _ fun hc => ?_)
  exact soundArrays_map hc (fun _ => soundSet_invalidateAll) _ _

theorem keeps_unlockAll (s : State) : Keeps s s.unlockAll :=
  keeps_cache s fun hc => soundArrays_map hc (fun _ => soundSet_unlock) _ _

theorem keeps_unlockLine (s : State) (a : Word) : Keeps s (s.unlockLine a) := by
  unfold State.unlockLine
  dsimp only
  split
  · next w _ =>
    refine keeps_cache s fun hc => soundArrays_putSet hc (soundSet_putWay (hc (setOf a)) (unlock_tag _) ?_ ?_)
    · rw [unlock_valid]
      exact id
    · exact unlock_lock (lock_way (hc (setOf a)) w)
  · exact .refl s

theorem keeps_iccstBit (s : State) {b : Nat} (v : Bool) (hb : b < 32) (hm : bit iccstMask b = true) :
    Keeps s { s with iccst := setBit s.iccst b v } :=
  { Keeps.refl s with iccst := within_setBit hb hm }

theorem keeps_loadLock (s : State) (a : Word) : Keeps s (s.loadLock a) := by
  unfold State.loadLock
  have herror : ∀ b, b = 10 ∨ b = 11 → Keeps s { s with iccst := setBit s.iccst b true } := by
    rintro b (rfl | rfl) <;> exact keeps_iccstBit s true (by decide) (by decide)
  dsimp only
  split
  · next w hw =>
    refine keeps_cache s fun hc => soundArrays_putSet hc (soundSet_putWay (hc (setOf a)) rfl id ?_)
    exact fun _ => valid_of_hitWay hw
  · next h =>
    split
    · exact herror 11 (.inr rfl)
    · split
      · exact (herror 10 (.inl rfl)).trans (keeps_cache _ fun hc => hc)
      · have hburst : ∀ b, Keeps s { s with icache := { s.icache with burst := b } } := fun b => keeps_cache s fun hc => hc
        split
        · exact hburst _
        · split
          · exact (hburst _).trans (keeps_fillWay _ _ _ h)
          · exact herror 11 (.inr rfl)

theorem keeps_cacheCommand (s : State) (v : Word) : Keeps s (s.cacheCommand v) := by
  unfold State.cacheCommand
  have h : Keeps s { s with iccst := insertBits s.iccst 0x0E000000#32 v } :=
    { Keeps.refl s with iccst := fun h => within_insertBits h rfl }
  dsimp only
  split
  · exact h.trans (keeps_iccstBit _ _ (by decide) (by decide))
  · exact h.trans ((keeps_remark _ _).trans (keeps_iccstBit _ _ (by decide) (by decide)))
  · exact h.trans (keeps_loadLock ..)
  · exact h.trans (keeps_unlockLine ..)
  · exact h.trans (keeps_unlockAll _)
  · exact h.trans (keeps_invalidateAll _)
  · exact h

theorem keeps_flushFetch (s : State) : Keeps s s.flushFetch :=
  (keeps_remark s _).trans (keeps_cache _ fun hc => hc)

/-! Counters. -/

theorem keeps_selfCount (s : State) (own : Bool) (v : Word) : Keeps s (s.selfCount own v).2 := by
  rw [(selfCount_frame s own v).2]
  exact { Keeps.refl s with }

theorem within_selfCount {v : Word} (s : State) (own : Bool) (h : within v countMask) : within (s.selfCount own v).1 countMask := by
  unfold State.selfCount
  split
  · exact within_insertBits h rfl
  · exact h

theorem Keeps.setCountA {s t : State} {v : Word} (h : Keeps s t) (hv : within s.countA countMask → within v countMask) :
    Keeps s { t with countA := v } :=
  { h with countA := hv }

theorem Keeps.setCountB {s t : State} {v : Word} (h : Keeps s t) (hv : within s.countB countMask → within v countMask) :
    Keeps s { t with countB := v } :=
  { h with countB := hv }

theorem keeps_readCountA (s : State) : Keeps s s.readCountA.2 :=
  ((keeps_selfCount ..).trans (keeps_selfCount ..)).setCountA (within_selfCount _ _)

theorem keeps_readCountB (s : State) : Keeps s s.readCountB.2 :=
  ((keeps_selfCount ..).trans (keeps_selfCount ..)).setCountB (within_selfCount _ _)

theorem keeps_writeCountA (s : State) (v : Word) : Keeps s (s.writeCountA v) :=
  (keeps_selfCount ..).setCountA fun _ => within_selfCount _ _ (within_and _ _)

theorem keeps_writeCountB (s : State) (v : Word) : Keeps s (s.writeCountB v) :=
  (keeps_selfCount ..).setCountB fun _ => within_selfCount _ _ (within_and _ _)

/-- A counter that counts down leaves its low half word. -/
theorem within_countDown {c : Word} (source : BitVec 2) (watch enabled : Bool) (h : within c countMask) :
    within (countDown source watch enabled c).1 countMask := by
  unfold countDown
  split
  · have hlow : ∀ k, 16 ≤ k → k < 32 → bit (c - 0x00010000#32) k = bit c k := by
      intro k h16 hk
      have : (c - 0x00010000#32).toNat % 2 ^ 16 = c.toNat % 2 ^ 16 := by
        rw [BitVec.toNat_sub]
        simp only [BitVec.toNat_ofNat]
        omega
      have hbit : ∀ w : Word, bit w k = (w.toNat % 2 ^ 16).testBit (31 - k) := by
        intro w
        rw [bit, BitVec.getLsbD, Nat.testBit_mod_two_pow]
        simp [show 31 - k < 16 by omega]
      rw [hbit, hbit, this]
    rw [within_iff] at *
    intro k hk hb
    by_cases h16 : 16 ≤ k
    · exact h k hk (hlow k h16 hk ▸ hb)
    · interval_cases k <;> rfl
  · exact h

theorem keeps_count (s : State) (source : BitVec 2) (a b : Bool) : Keeps s (s.count source a b).2.2 :=
  { Keeps.refl s with countA := within_countDown _ _ _, countB := within_countDown _ _ _ }

/-! Special registers. -/

theorem keeps_readEcr (s : State) : Keeps s s.readEcr.2 := by
  unfold State.readEcr
  exact (Keeps.refl s).ite { Keeps.refl s with ecr := fun _ => within_zero _ }

theorem keeps_readSpr (s : State) (n : BitVec 10) : Keeps s (s.readSpr n).2 := by
  unfold State.readSpr
  split
  case h_13 => exact keeps_readEcr s
  case h_15 => exact keeps_readCountA s
  case h_16 => exact keeps_readCountB s
  case h_30 => exact { Keeps.refl s with iccst := within_and_left _ }
  case h_33 => exact keeps_draw s
  all_goals exact .refl s

theorem keeps_writeDevelopment (s : State) (n : BitVec 10) (v : Word) : Keeps s (s.writeDevelopment n v) := by
  unfold State.writeDevelopment
  split
  case h_1 => exact { Keeps.refl s with cmpA := fun _ => within_and _ _ }
  case h_2 => exact { Keeps.refl s with cmpB := fun _ => within_and _ _ }
  case h_3 => exact { Keeps.refl s with cmpC := fun _ => within_and _ _ }
  case h_4 => exact { Keeps.refl s with cmpD := fun _ => within_and _ _ }
  case h_5 => exact { Keeps.refl s with der := fun _ => within_and _ _ }
  case h_6 => exact keeps_writeCountA s v
  case h_7 => exact keeps_writeCountB s v
  case h_12 => exact { Keeps.refl s with lctrl1 := fun _ => within_and _ _ }
  case h_13 => exact { Keeps.refl s with lctrl2 := fun _ => within_and _ _ }
  case h_14 => exact { Keeps.refl s with ictrl := fun _ => within_and _ _ }
  all_goals exact { Keeps.refl s with }

theorem keeps_setEERI (s : State) (ee ri : Bool) : Keeps s (s.setEERI ee ri) :=
  { Keeps.refl s with
    msr := fun h => within_setBit (by decide) (by decide) (within_setBit (by decide) (by decide) h) }

theorem keeps_writeDpdr (s : State) (v : Word) : Keeps s (s.writeDpdr v) := by
  unfold State.writeDpdr
  exact Keeps.ite { Keeps.refl s with } (.refl s)

theorem keeps_writeSpr (s : State) (n : BitVec 10) (v : Word) : Keeps s (s.writeSpr n v) := by
  unfold State.writeSpr
  split
  · exact (Keeps.refl s).ite (keeps_writeDevelopment s n v)
  · split
    case h_1 => exact { Keeps.refl s with xer := fun _ => within_and _ _ }
    case h_9 | h_10 | h_11 => exact keeps_setEERI ..
    case h_18 => exact keeps_cacheCommand s v
    case h_20 => exact keeps_writeDpdr s v
    case h_21 => exact { Keeps.refl s with fpecr := fun _ => within_and _ _ }
    all_goals exact { Keeps.refl s with }

end Sys2Proof.Proofs

/-! Every instruction and every step keeps the parts of the invariant. -/

namespace Sys2Proof.Proofs

open Sys2Proof Sys2Proof.Machine Sys2Proof.Laws

/-! The shared operations of the families. -/

section

variable (s : State)

theorem keeping_arith (rD : Reg) (v : Word) (ov oe rc : Bool) : Keeping s (arith rD v ov oe rc s) :=
  keeping_nextInstr ((keeps_setR ..).trans ((keeps_setOVIf ..).trans (keeps_recordIf ..)))

theorem keeping_arithCarry (rD : Reg) (x : Sum) (oe rc : Bool) : Keeping s (arithCarry rD x oe rc s) :=
  keeping_nextInstr ((keeps_setR ..).trans ((keeps_setCA ..).trans ((keeps_setOVIf ..).trans (keeps_recordIf ..))))

theorem keeping_divideUndefined (rD : Reg) (oe rc : Bool) : Keeping s (divideUndefined rD oe rc s) := by
  have h : Keeps s ((s.draw.2.setR rD (s.draw.1.setWidth 32)).setOVIf oe true) :=
    (keeps_draw s).trans ((keeps_setR ..).trans (keeps_setOVIf ..))
  exact keeping_nextInstr ((h.trans (keeps_setCr ..)).ite h)

theorem keeping_logical (rA : Reg) (v : Word) (rc : Bool) : Keeping s (logical rA v rc s) :=
  keeping_nextInstr ((keeps_setR ..).trans (keeps_recordIf ..))

theorem keeping_shiftedAlgebraic (rA : Reg) (x : Word × Bool) (rc : Bool) : Keeping s (shiftedAlgebraic rA x rc s) :=
  keeping_nextInstr ((keeps_setR ..).trans ((keeps_setCA ..).trans (keeps_recordIf ..)))

theorem keeping_denormOperand (dnc dnb dna : Bool) : Keeping s (denormOperand dnc dnb dna s) := by
  unfold denormOperand
  split
  · exact .after (keeps_setCauses ..) (keeping_finishFp _)
  · exact keeping_raise _ _

theorem keeping_finishOutcome (o : FpOutcome) (frD : Reg) (rc : Bool) : Keeping s (finishOutcome o frD rc s) := by
  cases o with
  | assist => exact keeping_raise _ _
  | result r => exact .after (keeps_deliverResult s frD rc r) (keeping_finishFp _)

theorem keeping_undefinedSingle (frD : Reg) (rc : Bool) : Keeping s (undefinedSingle frD rc s) := by
  unfold undefinedSingle
  have hdraw : Keeps s s.draw.2.draw.2 := (keeps_draw s).trans (keeps_draw _)
  dsimp only
  split
  · exact .after hdraw (keeping_raise _ _)
  · refine .after (hdraw.trans ?_) (keeping_finishFp _)
    cases rc
    case false => exact (keeps_setF ..).trans ((keeps_fpSummary ..).trans (keeps_setCauses ..))
    case true => exact (keeps_setF ..).trans ((keeps_fpSummary ..).trans ((keeps_setCauses ..).trans (keeps_setCr ..)))

theorem keeping_fpArith (op : FpOp) (p : Precision) (neg : Bool) (frD : Reg) (rc : Bool) :
    Keeping s (fpArith op p neg frD rc s) := by
  refine keeping_fpAvailable ?_
  split
  · exact keeping_undefinedSingle ..
  · split
    · cases op <;> exact keeping_denormOperand ..
    · exact keeping_finishOutcome ..

theorem keeping_execFrsp (frD frB : Reg) (rc : Bool) : Keeping s (execFrsp frD frB rc s) := by
  refine keeping_fpAvailable ?_
  split
  · exact keeping_denormOperand ..
  · exact keeping_finishOutcome ..

theorem keeping_convertToIntWord (mode : BitVec 2) (frD frB : Reg) (rc : Bool) :
    Keeping s (convertToIntWord mode frD frB rc s) := by
  refine keeping_fpAvailable ?_
  dsimp only
  split
  · exact keeping_raise _ _
  · exact .after ((keeps_draw s).trans ((keeps_deliverResult ..).trans (keeps_setCauses ..))) (keeping_finishFp _)

theorem keeping_comparing (crfD : BitVec 3) (a b : Dword) (set : Word) : Keeping s (comparing crfD a b set s) :=
  keeping_nextInstr ((keeps_fpSignal ..).trans ((keeps_setCr ..).trans (keeps_setCauses ..)))

theorem keeping_execFcmpu (crfD : BitVec 3) (frA frB : Reg) : Keeping s (execFcmpu crfD frA frB s) := by
  refine keeping_fpAvailable ?_
  dsimp only
  split
  · exact keeping_raise _ _
  · exact keeping_comparing ..

theorem keeping_execFcmpo (crfD : BitVec 3) (frA frB : Reg) : Keeping s (execFcmpo crfD frA frB s) := by
  refine keeping_fpAvailable ?_
  dsimp only
  split
  · exact keeping_raise _ _
  · exact keeping_comparing ..

theorem keeping_movedToFpscr (f : Word) (rc : Bool) : Keeping s (movedToFpscr f rc s) :=
  keeping_next ((keeps_fpSummary s f).trans ((keeps_recordFp ..).trans ((keeps_setCauses ..).trans
    ((keeps_advance _).trans (keeps_fpEnabledTest ..)))))

theorem keeping_execMffs (frD : Reg) (rc : Bool) : Keeping s (execMffs frD rc s) :=
  keeping_fpAvailable (keeping_nextInstr ((keeps_draw s).trans ((keeps_setF ..).trans ((keeps_recordFp ..).trans
    (keeps_setCauses ..)))))

theorem keeping_execMcrfs (crfD crfS : BitVec 3) : Keeping s (execMcrfs crfD crfS s) :=
  keeping_fpAvailable (.after (keeps_setCr ..) (keeping_movedToFpscr ..))

/-! Loads and stores. -/

theorem keeping_loadInt (i : Instr) (n : Nat) (ext : Dword → Word) (rD : Reg) (update : Option Reg) (ea : Word) :
    Keeping s (loadInt i n ext rD update ea s) := by
  unfold loadInt
  split
  · exact keeping_alignmentOf ..
  · split
    · next h => exact keeping_busError _ (keeps_load ..) h
    · next h =>
      have ht := keeps_done (keeps_load ..) h
      split
      · exact keeping_nextInstr (ht.trans ((keeps_setR ..).trans (keeps_setR ..)))
      · exact keeping_nextInstr (ht.trans (keeps_setR ..))

theorem keeping_storeInt (i : Instr) (n : Nat) (v : Word) (update : Option Reg) (ea : Word) :
    Keeping s (storeInt i n v update ea s) := by
  unfold storeInt
  split
  · exact keeping_alignmentOf ..
  · split
    · next h => exact keeping_busError _ (keeps_store ..) h
    · next h =>
      have ht := keeps_done (keeps_store ..) h
      split
      · exact keeping_nextInstr (ht.trans (keeps_setR ..))
      · exact keeping_nextInstr ht

theorem keeping_loadRegs (i : Instr) (rD : Reg) (ea : Word) (n : Nat) : Keeping s (loadRegs i rD ea n s) := by
  unfold loadRegs
  split
  · next h => exact keeping_busError i (keeps_readCycles ..) h
  · next h => exact keeping_nextInstr ((keeps_done (keeps_readCycles ..) h).trans (keeps_putRegs ..))

theorem keeping_storeRegs (i : Instr) (rS : Reg) (ea : Word) (n : Nat) : Keeping s (storeRegs i rS ea n s) := by
  unfold storeRegs
  split
  · next h => exact keeping_busError i (keeps_writeCycles ..) h
  · next h => exact keeping_nextInstr (keeps_done (keeps_writeCycles ..) h)

theorem keeping_loadSingle (i : Instr) (frD : Reg) (update : Option Reg) (ea : Word) :
    Keeping s (loadSingle i frD update ea s) := by
  refine keeping_fpAvailable ?_
  split
  · exact keeping_alignmentOf ..
  · split
    · next h => exact keeping_busError _ (keeps_load ..) h
    · next h =>
      have ht := keeps_done (keeps_load ..) h
      split
      · exact .after ht (keeping_raise _ _)
      · exact keeping_nextInstr (ht.trans ((keeps_setF ..).trans (keeps_updateBase ..)))

theorem keeping_loadDouble (i : Instr) (frD : Reg) (update : Option Reg) (ea : Word) :
    Keeping s (loadDouble i frD update ea s) := by
  refine keeping_fpAvailable ?_
  split
  · exact keeping_alignmentOf ..
  · split
    · next h => exact keeping_busError _ (keeps_load ..) h
    · next h =>
      exact keeping_nextInstr ((keeps_done (keeps_load ..) h).trans ((keeps_setF ..).trans (keeps_updateBase ..)))

theorem keeping_storeFp (i : Instr) (n : Nat) (x : Bool) (v : Dword) (update : Option Reg) (ea : Word) :
    Keeping s (storeFp i n x v update ea s) := by
  unfold storeFp
  split
  · next h => exact keeping_busError i (keeps_store ..) h
  · next h => exact keeping_nextInstr ((keeps_done (keeps_store ..) h).trans (keeps_updateBase ..))

theorem keeps_single (d : Dword) : Keeps s (s.single d).2 := by
  unfold State.single
  split
  · exact .refl s
  · exact keeps_draw s

theorem keeping_storeSingle (i : Instr) (frS : Reg) (update : Option Reg) (ea : Word) :
    Keeping s (storeSingle i frS update ea s) := by
  refine keeping_fpAvailable ?_
  split
  · exact keeping_alignmentOf ..
  · split
    · exact keeping_raise _ _
    · exact .after (keeps_single ..) (keeping_storeFp ..)

theorem keeping_storeDouble (i : Instr) (frS : Reg) (update : Option Reg) (ea : Word) :
    Keeping s (storeDouble i frS update ea s) := by
  refine keeping_fpAvailable ?_
  split
  · exact keeping_alignmentOf ..
  · exact keeping_storeFp ..

theorem keeping_execStfiwx (frS rA rB : Reg) : Keeping s (execStfiwx frS rA rB s) := by
  refine keeping_fpAvailable ?_
  dsimp only
  split
  · exact keeping_alignmentOf ..
  · exact keeping_storeFp ..

theorem keeping_fpMove (v : Dword) (frD : Reg) (rc : Bool) : Keeping s (fpMove v frD rc s) :=
  keeping_fpAvailable (keeping_nextInstr ((keeps_setF ..).trans ((keeps_setCauses ..).trans (keeps_recordFp ..))))

theorem keeping_execLwarx (rD rA rB : Reg) : Keeping s (execLwarx rD rA rB s) := by
  unfold execLwarx
  dsimp only
  split
  · exact keeping_alignmentOf ..
  · split
    · next h => exact keeping_busError _ (keeps_load ..) h
    · next h =>
      have ht := keeps_done (keeps_load ..) h
      exact keeping_nextInstr (ht.trans ((keeps_reservation ..).trans (keeps_setR ..)))

theorem keeping_execStwcx (rS rA rB : Reg) : Keeping s (execStwcx rS rA rB s) := by
  unfold execStwcx
  dsimp only
  split
  · exact keeping_alignmentOf ..
  · split
    · exact keeping_nextInstr (keeps_setCr ..)
    · split
      · next h => exact keeping_busError _ (keeps_store ..) h
      · next h =>
        have ht := keeps_done (keeps_store ..) h
        exact keeping_nextInstr (ht.trans ((keeps_reservation ..).trans (keeps_setCr ..)))

/-! Branches. -/

theorem keeping_branchTo (taken : Bool) {target : Word} (lk : Bool) (h : s.pcAligned → target &&& 3#32 = 0) :
    Keeping s (branchTo taken target lk s) := by
  have hnext : s.pcAligned → (if taken then target else s.pc + 4) &&& 3#32 = 0 := by
    intro hs
    split
    · exact h hs
    · exact aligned_add hs rfl
  refine keeping_next ?_
  cases lk
  · exact { Keeps.refl s with pc := hnext }
  · exact { Keeps.refl s with pc := hnext }

theorem aligned_relative {n : Nat} (aa : Bool) (d : BitVec n) (hn : n + 2 ≤ 32) (h : s.pcAligned) :
    (if aa then (d ++ 0#2 : BitVec (n + 2)).signExtend 32 else s.pc + (d ++ 0#2 : BitVec (n + 2)).signExtend 32) &&&
      3#32 = 0 := by
  split
  · exact aligned_offset d hn
  · exact aligned_add h (aligned_offset d hn)

theorem keeping_execB (li : BitVec 24) (aa lk : Bool) : Keeping s (execB li aa lk s) := by
  unfold execB
  dsimp only
  split
  · exact keeping_refused ..
  · exact keeping_branchTo s true lk (aligned_relative s aa li (by decide))

theorem keeping_execBc (bo bi : BitVec 5) (bd : BitVec 14) (aa lk : Bool) : Keeping s (execBc bo bi bd aa lk s) := by
  unfold execBc
  dsimp only
  split
  · exact keeping_refused ..
  · split
    · exact keeping_refused ..
    · refine .after (t := { s with ctr := ctrAfter bo s.ctr }) { Keeps.refl s with } ?_
      exact keeping_branchTo _ _ lk (aligned_relative s aa bd (by decide))

theorem keeping_execBclr (bo bi : BitVec 5) (lk : Bool) : Keeping s (execBclr bo bi lk s) := by
  unfold execBclr
  dsimp only
  split
  · exact keeping_refused ..
  · split
    · exact keeping_refused ..
    · refine .after (t := { s with ctr := ctrAfter bo s.ctr }) { Keeps.refl s with } ?_
      exact keeping_branchTo _ _ lk fun _ => aligned_mask s.lr

theorem keeping_execBcctr (bo bi : BitVec 5) (lk : Bool) : Keeping s (execBcctr bo bi lk s) := by
  unfold execBcctr
  split
  · exact keeping_refused ..
  · split
    · exact keeping_refused ..
    · split
      · exact keeping_refused ..
      · exact keeping_branchTo s _ lk fun _ => aligned_mask s.ctr

/-! System linkage and processor control. -/

theorem keeping_execSc : Keeping s (execSc s) :=
  keeping_next (((Keeps.refl s).ite (keeps_draw s)).trans (keeps_take ..))

theorem keeping_execMcrxr (crfD : BitVec 3) : Keeping s (execMcrxr crfD s) := by
  refine keeping_nextInstr (Keeps.trans ?_ (keeps_setCr ..))
  exact { Keeps.refl s with xer := within_and_left _ }

theorem keeping_execMtmsr (rS : Reg) : Keeping s (execMtmsr rS s) := by
  refine keeping_supervisorOnly (keeping_next (Keeps.trans ?_ ((keeps_advance _).trans (keeps_fpEnabledTest ..))))
  exact { Keeps.refl s with msr := fun _ => within_and _ _ }

theorem keeping_execMfspr (rD : Reg) (spr : BitVec 10) : Keeping s (execMfspr rD spr s) := by
  refine keeping_sprAccess ?_
  split
  · exact keeping_nextInstr { Keeps.refl s with }
  · exact keeping_nextInstr ((keeps_readSpr ..).trans (keeps_setR ..))

theorem keeping_execMftb (rD : Reg) (tbr : BitVec 10) : Keeping s (execMftb rD tbr s) := by
  unfold execMftb
  split
  · exact keeping_raise _ _
  · split
    · exact keeping_nextInstr (keeps_setR ..)
    · split
      · exact keeping_nextInstr (keeps_setR ..)
      · exact keeping_raise _ _

end

/-- Every instruction keeps the parts of the invariant. -/
theorem keeping_exec (i : Instr) (s : State) : Keeping s (exec i s) := by
  have h := exec_ends i s
  generalize exec i s = r at h
  cases h with
  | arith => exact keeping_arith ..
  | arithCarry => exact keeping_arithCarry ..
  | divideUndefined => exact keeping_divideUndefined ..
  | compareWith => exact keeping_nextInstr (keeps_setCr ..)
  | logical => exact keeping_logical ..
  | rotated => exact keeping_logical ..
  | shiftedAlgebraic => exact keeping_shiftedAlgebraic ..
  | fpArith => exact keeping_fpArith ..
  | frsp => exact keeping_execFrsp ..
  | convertToIntWord => exact keeping_convertToIntWord ..
  | fcmpu => exact keeping_execFcmpu ..
  | fcmpo => exact keeping_execFcmpo ..
  | mffs => exact keeping_execMffs ..
  | mcrfs => exact keeping_execMcrfs ..
  | moveToFpscr f rc => exact keeping_fpAvailable (keeping_movedToFpscr ..)
  | loadInt => exact keeping_loadInt ..
  | storeInt => exact keeping_storeInt ..
  | alignmentOf => exact keeping_alignmentOf ..
  | loadRegs => exact keeping_loadRegs ..
  | storeRegs => exact keeping_storeRegs ..
  | loadFree => exact keeping_nextInstr ((keeps_draw s).trans (keeps_setR ..))
  | loadSingle => exact keeping_loadSingle ..
  | loadDouble => exact keeping_loadDouble ..
  | storeSingle => exact keeping_storeSingle ..
  | storeDouble => exact keeping_storeDouble ..
  | stfiwx => exact keeping_execStfiwx ..
  | fpMove => exact keeping_fpMove ..
  | b => exact keeping_execB ..
  | bc => exact keeping_execBc ..
  | bclr => exact keeping_execBclr ..
  | bcctr => exact keeping_execBcctr ..
  | writeCr => exact keeping_nextInstr { Keeps.refl s with }
  | sc => exact keeping_execSc s
  | rfi => exact keeping_supervisorOnly (keeping_next (keeps_returnFromException s))
  | trap => exact keeping_next (keeps_take ..)
  | nothing => exact keeping_nextInstr (.refl s)
  | writeGpr => exact keeping_nextInstr (keeps_setR ..)
  | mcrxr => exact keeping_execMcrxr ..
  | mfmsr => exact keeping_supervisorOnly (keeping_nextInstr (keeps_setR ..))
  | mtmsr => exact keeping_execMtmsr ..
  | mfspr => exact keeping_execMfspr ..
  | mtspr => exact keeping_sprAccess (keeping_nextInstr (keeps_writeSpr ..))
  | mftb => exact keeping_execMftb ..
  | isync => exact keeping_nextInstr (keeps_flushFetch s)
  | lwarx => exact keeping_execLwarx ..
  | stwcx => exact keeping_execStwcx ..
  | icbi => exact keeping_nextInstr (keeps_invalidateBlock ..)
  | refusedLoad => exact keeping_refused ..

/-! Host events. -/

theorem keeps_drawInto (s : State) {set : State → Word → State} (h : ∀ t v, Keeps t (set t v)) : Keeps s (s.drawInto set) :=
  (keeps_draw s).trans (h ..)

theorem within_highHalf (v : Word) : within (v &&& 0xFFFF0000#32) countMask := by
  rw [within, BitVec.and_assoc]
  exact BitVec.and_zero

theorem keeps_undefinedAtReset (s : State) : Keeps s s.undefinedAtReset := by
  unfold State.undefinedAtReset
  dsimp only
  refine .trans ?_ (keeps_drawInto _ fun t _ => { Keeps.refl t with countB := fun _ => within_highHalf _ })
  refine .trans ?_ (keeps_drawInto _ fun t _ => { Keeps.refl t with countA := fun _ => within_highHalf _ })
  refine .trans ?_ (keeps_drawInto _ fun t _ => { Keeps.refl t with })
  refine .trans ?_ (keeps_drawInto _ fun t _ => { Keeps.refl t with })
  refine .trans ?_ (keeps_drawInto _ fun t _ => { Keeps.refl t with })
  refine .trans ?_ (keeps_drawInto _ fun t _ => { Keeps.refl t with })
  refine .trans ?_ (keeps_drawInto _ fun t _ => { Keeps.refl t with cmpD := fun _ => within_and _ _ })
  refine .trans ?_ (keeps_drawInto _ fun t _ => { Keeps.refl t with cmpC := fun _ => within_and _ _ })
  refine .trans ?_ (keeps_drawInto _ fun t _ => { Keeps.refl t with cmpB := fun _ => within_and _ _ })
  refine .trans ?_ (keeps_drawInto _ fun t _ => { Keeps.refl t with cmpA := fun _ => within_and _ _ })
  refine .trans ?_ (keeps_drawInto _ fun t _ => { Keeps.refl t with })
  refine .trans ?_ (keeps_drawInto _ fun t _ => { Keeps.refl t with })
  refine .trans ?_ (keeps_drawInto _ fun t _ => { Keeps.refl t with })
  exact keeps_drawInto _ fun t _ => { Keeps.refl t with }

theorem within_resetMsr (ip : Bool) (m : Word) : within (resetMsr ip m) msrMask := by
  refine within_setBit (by decide) (by decide) ?_
  have h : m &&& bitMask 19 &&& ~~~msrMask = m &&& (bitMask 19 &&& ~~~msrMask) := BitVec.and_assoc ..
  rw [within, h, show bitMask 19 &&& ~~~msrMask = 0 from rfl]
  exact BitVec.and_zero

theorem within_resetDer : within 0x2002000F#32 causeMask := rfl

theorem keeps_doReset (s : State) (x y : Bool) : Keeps s (s.doReset x y) := by
  unfold State.doReset
  refine (keeps_undefinedAtReset s).trans (Keeps.trans ?_ (keeps_flushQueue _))
  exact {
    Keeps.refl s.undefinedAtReset with
    msr := fun _ => within_resetMsr _ _
    pc := fun _ => aligned_add (by unfold vectorBase; split <;> rfl) rfl
    fpecr := fun _ => within_zero _, iccst := fun _ => within_zero _, ictrl := fun _ => within_zero _
    lctrl1 := fun _ => within_zero _, lctrl2 := fun _ => within_zero _, ecr := fun _ => within_zero _
    der := fun _ => within_resetDer
    debug := fun _ h => nomatch h }

theorem keeps_updateTecr (s : State) (control : Bool) (d : BitVec 7) : Keeps s (s.updateTecr control d) := by
  cases control
  · exact { Keeps.refl s with }
  · exact { Keeps.refl s with }

theorem keeps_takeTransmission (s : State) (t : Transmission) : Keeps s (s.takeTransmission t) := by
  unfold State.takeTransmission
  split
  · exact { Keeps.refl s with }
  · have h : Keeps s { s with port := { s.port with reply := some .null } } := { Keeps.refl s with }
    cases t with
    | trapEnable control d => exact h.trans (keeps_updateTecr ..)
    | cpuInstr w => exact { Keeps.refl s with }
    | cpuData w => exact { Keeps.refl s with }

/-- What each element keeps, a run over a list keeps. -/
theorem keeps_foldl {α : Type} {f : State → α → State} (h : ∀ s a, Keeps s (f s a)) : ∀ (l : List α) (s : State),
    Keeps s (l.foldl f s)
  | [], s => .refl s
  | a :: l, s => (h s a).trans (keeps_foldl h l (f s a))

theorem keeps_drainPort (s : State) : Keeps s s.drainPort := by
  refine Keeps.trans ?_ (keeps_foldl keeps_takeTransmission _ _)
  exact { Keeps.refl s with }

theorem keeps_tick (s : State) : Keeps s s.tick := by
  unfold State.tick
  exact (Keeps.refl s).ite { Keeps.refl s with }

theorem keeps_deliver (s : State) (e : HostEvent) : Keeps s (s.deliver e) := by
  cases e with
  | tick => exact keeps_tick s
  | busWrite a v => exact keeps_busWrite ..
  | busWriteDuring k a v =>
    rw [State.deliver]
    exact (keeps_busWrite s a v).ite { Keeps.refl s with }
  | negateReset x y =>
    rw [State.deliver]
    exact (keeps_doReset s x y).ite (.refl s)
  | assertResetDuring =>
    rw [State.deliver]
    exact Keeps.ite { Keeps.refl s with } { Keeps.refl s with }
  | irq | breakRequest | assertReset | transmit =>
    rw [State.deliver]
    exact { Keeps.refl s with }

theorem keeps_deliverEvents (s : State) : Keeps s s.deliverEvents := by
  unfold State.deliverEvents
  split
  · exact .refl s
  · refine Keeps.trans ?_ (keeps_foldl keeps_deliver _ _)
    exact { Keeps.refl s with }

/-! The step. -/

theorem keeps_iBreakpoint (s : State) : Keeps s s.iBreakpoint.2 := by
  have hignored : Keeps s (if s.iMatch && bit s.ictrl 28 then { s with ictrl := setBit s.ictrl 28 false } else s) :=
    Keeps.ite { Keeps.refl s with ictrl := within_setBit (by decide) (by decide) } (.refl s)
  unfold State.iBreakpoint
  dsimp only
  generalize (if s.iMatch && bit s.ictrl 28 then { s with ictrl := setBit s.ictrl 28 false } else s) = u at hignored ⊢
  have hcount := hignored.trans (keeps_count u countsI (s.iWatch 0) (s.iWatch 1))
  split
  · refine { hcount with countA := ?_, countB := ?_ }
    · dsimp only
      split
      · exact hcount.countA
      · exact id
    · dsimp only
      split
      · exact hcount.countB
      · exact id
  · exact hcount

theorem keeps_bar (s : State) (b : Word) : Keeps s { s with bar := b } :=
  { Keeps.refl s with }

theorem keeps_lBreakpoint (s : State) (iw : Nat → Bool) (next : Word) : Keeps s (s.lBreakpoint iw next).2 := by
  unfold State.lBreakpoint
  dsimp only
  split
  · dsimp only
    exact ((keeps_count ..).trans (keeps_bar ..)).trans (keeps_take ..)
  · exact keeps_count ..

/-- An instruction that does not retire leaves the counters as they were before it. -/
theorem keeps_uncount {s t : State} (h : Keeps s t) : Keeps s (t.uncount s) :=
  { h with countA := id, countB := id }

theorem keeps_afterInstr {s t : State} (h : Keeps s t) (i : Instr) (iw : Nat → Bool) : Keeps s (t.afterInstr s i iw) := by
  have hl := h.trans (keeps_lBreakpoint t iw (s.pc + 4))
  unfold State.afterInstr
  split
  · exact keeps_uncount h
  · exact h
  · dsimp only
    split
    · exact hl
    · exact (hl.trans (keeps_take ..)).ite hl

theorem keeping_runWord (s : State) (w : Word) : Keeping s (s.runWord w) := by
  unfold State.runWord
  have hm := keeps_iBreakpoint s
  dsimp only
  split
  · exact keeping_next (hm.trans (keeps_take ..))
  · split
    · exact keeping_next (keeps_uncount (hm.trans (keeps_take ..)))
    · split
      · next h => exact keeping_next (keeps_afterInstr (hm.trans ((keeping_exec ..).keeps _ h)) _ _)
      · exact ⟨by intro t h; cases h⟩
      · exact keeping_refused ..

theorem keeping_instruction (s : State) : Keeping s s.instruction := by
  have h := (keeps_fresh s).trans (keeps_fetchAt s.fresh (fetchAddr s.msr s.pc))
  unfold State.instruction
  split
  · next e =>
    rw [e] at h
    exact keeping_next (h.trans (keeps_machineCheck _ (.refl _)))
  · next e =>
    rw [e] at h
    exact .after h (keeping_runWord ..)

theorem keeps_reportRequests (s : State) : Keeps s s.reportRequests := by
  have h : Keeps s (if s.irq && msrEE s.msr then s.take .external s.pc 0 else s) := (keeps_take ..).ite (.refl s)
  exact (h.trans (keeps_take ..)).ite h

theorem keeps_afterDebugInstr {s t : State} (h : Keeps s t) : Keeps s (t.afterDebugInstr s) := by
  unfold State.afterDebugInstr
  have hu : Keeps s (if t.excTaken = none then (t.lBreakpoint (fun _ => false) s.pc).2 else t) :=
    (h.trans (keeps_lBreakpoint ..)).ite h
  dsimp only
  refine Keeps.ite hu ?_
  have hv := Keeps.ite (c := ((if t.excTaken = none then (t.lBreakpoint (fun _ => false) s.pc).2 else t).port.wait.isNone = true))
    (hu.trans (keeps_reportRequests _)) hu
  exact { hv with pc := id }

theorem keeping_runDebugWord (s : State) (w : Word) : Keeping s (s.runDebugWord w) := by
  unfold State.runDebugWord
  split
  · exact keeping_next (keeps_afterDebugInstr (keeps_take ..))
  · split
    · next h => exact keeping_next (keeps_afterDebugInstr ((keeping_exec ..).keeps _ h))
    · exact ⟨by intro t h; cases h⟩
    · exact keeping_refused ..

theorem keeps_sequenceError (s : State) : Keeps s s.sequenceError :=
  { Keeps.refl s with ecr := within_setBit (by decide) (by decide) }

theorem keeps_port (s : State) (p : Port) : Keeps s { s with port := p } :=
  { Keeps.refl s with }

theorem keeping_debugTransmission (s : State) (t : Transmission) : Keeping s (s.debugTransmission t) := by
  have hu := keeps_port s
  unfold State.debugTransmission
  dsimp only
  split
  · split
    · exact keeping_next ((hu _).trans (keeps_updateTecr ..))
    · refine keeping_next ((hu _).trans (keeps_afterDebugInstr ?_))
      exact ((keeps_fresh _).trans (keeps_setR ..)).trans (keeps_port ..)
    · exact keeping_next ((hu _).trans (keeps_sequenceError _))
  · split
    · exact keeping_next (hu _)
    · split
      · exact keeping_next ((hu _).trans (keeps_updateTecr ..))
      · exact keeping_next ((hu _).trans (keeps_sequenceError _))
      · exact .after ((hu _).trans (keeps_fresh _)) (keeping_runDebugWord ..)

theorem keeping_debugStep (s : State) : Keeping s s.debugStep := by
  unfold State.debugStep
  split
  · exact keeping_next (.refl s)
  · refine .after ?_ (keeping_debugTransmission ..)
    exact { Keeps.refl s with }

theorem keeps_saved (s : State) (a b : Word) : Keeps s { s with srr0 := a, srr1 := b } :=
  { Keeps.refl s with }

theorem keeps_nmiTaken (s : State) : Keeps s { s with nmiPending := false, nmiAtReset := false } :=
  { Keeps.refl s with }

theorem keeps_takeNmi (s : State) : Keeps s s.takeNmi := by
  have h := (keeps_nmiTaken s).trans (keeps_take _ .nonMaskableBreakpoint s.pc 0)
  exact ((h.trans (keeps_draw _)).trans ((keeps_draw _).trans (keeps_saved ..))).ite h

theorem keeping_runStep (s : State) : Keeping s s.runStep := by
  unfold State.runStep
  split
  · exact keeping_next (keeps_takeNmi s)
  · split
    · refine keeping_next (Keeps.trans (t := { s with mebPending := false }) ?_ (keeps_take ..))
      exact { Keeps.refl s with }
    · split
      · exact keeping_next (keeps_take ..)
      · split
        · refine keeping_next (Keeps.trans (t := { s with decPending := false }) ?_ (keeps_take ..))
          exact { Keeps.refl s with }
        · exact keeping_instruction s

theorem keeping_proceed (s : State) : Keeping s s.proceed := by
  unfold State.proceed
  split
  · exact keeping_debugStep s
  · exact .after (keeps_drainPort s) (keeping_runStep _)

theorem keeps_begun (s : State) : Keeps s s.begun := by
  unfold State.begun
  exact (Keeps.refl s).ite ((keeps_drainPort s).trans ((keeps_fresh _).trans (keeps_fetchAt ..)))

theorem keeps_scribble (s : State) (c : BusCycle) : Keeps s (s.scribble c) := by
  unfold State.scribble
  exact ((keeps_draw s).trans (keeps_writeBytes ..)).ite (.refl s)

/-- An instruction that RESET cuts short leaves memory as the instruction wrote it, and the cache as the fetch left it. -/
theorem keeps_abandon {s t : State} (h : Keeps s t) : Keeps s (s.abandon t) := by
  unfold State.abandon
  refine Keeps.trans ?_ (keeps_foldl keeps_scribble _ _)
  exact { Keeps.refl s with mem := h.mem, cache := (keeps_begun s).cache }

theorem keeping_proceedCut (s : State) : Keeping s s.proceedCut := by
  have h : Keeps s { s with lbus := [] } := { Keeps.refl s with }
  unfold State.proceedCut
  dsimp only
  split
  · next e => exact keeping_next (h.trans (keeps_abandon ((keeping_proceed _).keeps _ e)))
  · exact keeping_next (h.trans (keeps_abandon (keeps_begun _)))
  · exact keeping_next (h.trans (keeps_abandon (keeps_begun _)))

theorem keeping_settled {s : State} {r : Result} (h : Keeping s r) : Keeping s (settled r) := by
  cases r with
  | next t => exact keeping_next ((h.keeps t rfl).trans (keeps_settle t))
  | fault f => exact ⟨by intro t h; cases h⟩
  | refused f => exact keeping_refused ..

/-- Every step keeps the parts of the invariant. -/
theorem keeping_step (s : State) : Keeping s (step s) := by
  unfold step State.stepOnce
  refine .after (keeps_deliverEvents s) (keeping_settled ?_)
  split
  · exact keeping_next (.refl _)
  · split
    · exact keeping_next (.refl _)
    · split
      · exact keeping_proceedCut _
      · exact keeping_proceed _

/-- Settles O12: a step writes memory only byte by byte. -/
theorem stepKeepsMemoryCanonical : Obligations.StepKeepsMemoryCanonical :=
  fun s t hs h => ((keeping_step s).keeps t h).mem hs

/-- Settles O13: CIA is advanced by 4, or takes a vector, a target of a branch, or SRR0 without its low bits. -/
theorem stepKeepsPcAligned : Obligations.StepKeepsPcAligned :=
  fun s t hs h => ((keeping_step s).keeps t h).pc hs

/-- Settles O14: every write of a register with reserved bits is under its mask. -/
theorem stepKeepsReservedBitsZero : Obligations.StepKeepsReservedBitsZero := by
  intro s t hs h
  have k := (keeping_step s).keeps t h
  obtain ⟨⟨hmsr, hxer, hfpecr, hiccst⟩, hA, hB, hC, hD, hecr, hder, hcountA, hcountB, hlctrl1, hlctrl2, hictrl⟩ := hs
  exact ⟨⟨k.msr hmsr, k.xer hxer, k.fpecr hfpecr, k.iccst hiccst⟩, k.cmpA hA, k.cmpB hB, k.cmpC hC, k.cmpD hD,
    k.ecr hecr, k.der hder, k.countA hcountA, k.countB hcountB, k.lctrl1 hlctrl1, k.lctrl2 hlctrl2, k.ictrl hictrl⟩

/-- Settles O15: the FPSCR is written only through `fpSummary`. -/
theorem stepKeepsFpscrSummaries : Obligations.StepKeepsFpscrSummaries :=
  fun s t hs h => ((keeping_step s).keeps t h).fpscr hs

/-- Settles O16: a line is filled only into a set that does not hold it, and debug mode is entered only where it is enabled. -/
theorem stepKeepsCacheAndDebugSound : Obligations.StepKeepsCacheAndDebugSound := by
  rintro s t ⟨hcache, hdebug⟩ h
  have k := (keeping_step s).keeps t h
  exact ⟨k.cache hcache, k.debug hdebug⟩

/-- Settles O11: each part on the state as it is written. -/
theorem resetSatisfiesInvariant : Obligations.ResetSatisfiesInvariant := by
  have hcache : State.reset.cacheSound := by
    intro k
    have : State.reset.icache.setAt k = .empty := by simp [ICache.setAt, State.reset, ICache.empty]
    rw [this]
    exact ⟨nofun, nofun, nofun⟩
  refine ⟨rfl, rfl, ⟨rfl, rfl, rfl, rfl⟩, ?_, ⟨rfl, rfl, rfl⟩, nofun, hcache⟩
  exact ⟨rfl, rfl, rfl, rfl, rfl, rfl, rfl, rfl, rfl, rfl, rfl⟩

/-- Settles O9: the values of the state as it is written. -/
theorem powerOnResetValues : Obligations.PowerOnResetValues := by
  unfold Obligations.PowerOnResetValues
  dsimp only
  refine ⟨?_, ?_, ?_, ?_, ?_, ?_, ?_, ?_, ?_, ?_, ?_, ?_, ?_, ?_, ?_, ?_, ?_, ?_, ?_, ?_, ?_, ?_, ?_⟩ <;> rfl

end Sys2Proof.Proofs

/-! Integer arithmetic: sums, products and quotients (40_integer_arith.md R240 to R267). -/

namespace Sys2Proof.Proofs

open Sys2Proof Sys2Proof.Machine Sys2Proof.Laws

/-! Sums (R241 to R258). -/

theorem add32_sum (a b : Word) (c : Bool) : (add32 a b c).sum = a + b + BitVec.ofNat 32 c.toNat := (add32_spec a b c).1

/-- Without OE the overflow plays no part. -/
theorem arith_ov_unused (rD : Reg) (v : Word) (ov ov' rc : Bool) (s : State) :
    arith rD v ov false rc s = arith rD v ov' false rc s := rfl

/-- Every form of R241 to R258 is `Add32` of its addends, with or without CA. -/
theorem exec_sumForm {i : Instr} {s : State} {x : SumForm} (h : sumForm s i = some x) :
    exec i s =
      if x.setsCA then arithCarry x.rD (add32 x.a x.b x.cin) x.oe x.rc s
      else arith x.rD (add32 x.a x.b x.cin).sum (add32 x.a x.b x.cin).ov x.oe x.rc s := by
  have himm (rD : Reg) (a b : Word) (ov : Bool) :
      arith rD (a + b) false false false s = arith rD (add32 a b false).sum ov false false s := by
    rw [add32_sum, Bool.toNat_false, BitVec.add_zero, arith_ov_unused]
  unfold sumForm at h
  split at h <;> cases h
  case h_1 | h_2 => exact himm ..
  all_goals rfl

/-- Settles O18: the shared end of the family on the exact sum. -/
theorem addSubtractResult : Obligations.AddSubtractResult := by
  intro i s x h
  obtain ⟨hsum, hca, hov⟩ := add32_spec x.a x.b x.cin
  rw [exec_sumForm h]
  cases hc : x.setsCA with
  | true =>
    obtain ⟨t, hx, hr, ht, hover, hrec, hrest, hgpr, hmem, honly, hpc⟩ :=
      arithCarry_spec x.rD (add32 x.a x.b x.cin) x.oe x.rc s
    exact ⟨t, hx, hr.trans hsum, ht.trans hca, hov ▸ hover, hr.symm ▸ hrec, hrest, hgpr, sameMemory_of_mem hmem, honly, hpc⟩
  | false =>
    obtain ⟨t, hx, hr, ht, hover, hrec, hrest, hgpr, hmem, honly, hpc⟩ :=
      arith_spec x.rD (add32 x.a x.b x.cin).sum (add32 x.a x.b x.cin).ov x.oe x.rc s
    exact ⟨t, hx, hr.trans hsum, ht, hov ▸ hover, hr.symm ▸ hrec, hrest, hgpr, sameMemory_of_mem hmem, honly, hpc⟩

/-! Products (R262 to R265). -/

theorem toInt_sext16 (v : BitVec 16) : (sext16 v).toInt = v.toInt := BitVec.toInt_signExtend_of_le (by decide)

/-- The low word of a signed product. -/
theorem ofInt_toInt_mul (a b : Word) : BitVec.ofInt 32 (a.toInt * b.toInt) = a * b := by
  rw [BitVec.ofInt_mul, BitVec.ofInt_toInt, BitVec.ofInt_toInt]

theorem productOverflows_eq (a b : Word) :
    productOverflows a b = decide (a.toInt * b.toInt < -2 ^ 31 ∨ 2 ^ 31 ≤ a.toInt * b.toInt) := by
  rw [Bool.decide_or]
  rfl

/-- Every multiplication delivers a word of its product, and tells with OE = 1 whether the product is no 32-bit number. -/
theorem exec_productForm {i : Instr} {s : State} {x : ProductForm} (h : productForm s i = some x) :
    exec i s = arith x.rD (BitVec.ofInt 32 (if x.high then x.product / 2 ^ 32 else x.product))
      (decide (x.product < -2 ^ 31 ∨ 2 ^ 31 ≤ x.product)) x.oe x.rc s := by
  unfold productForm at h
  split at h <;> cases h <;> simp only [if_true, Bool.false_eq_true, if_false]
  case h_1 rD rA simm =>
    rw [← toInt_sext16, ofInt_toInt_mul, arith_ov_unused]
    rfl
  case h_2 rD rA rB oe rc =>
    rw [ofInt_toInt_mul, ← productOverflows_eq]
    rfl
  case h_3 rD rA rB rc => rfl
  case h_4 rD rA rB rc =>
    change arith rD (BitVec.ofNat 32 ((s.r rA).toNat * (s.r rB).toNat / 2 ^ 32)) false false rc s = _
    rw [← BitVec.ofInt_natCast, arith_ov_unused]
    push_cast
    rfl

/-! Quotients (R266, R267). -/

/-- A truncated quotient of two words lies in the range of a word, but for the most negative one by -1. -/
theorem toInt_tdiv {a b : Word} (hb : b ≠ 0) (h : ¬(a.toInt = -2 ^ 31 ∧ b.toInt = -1)) :
    (BitVec.ofInt 32 (a.toInt.tdiv b.toInt)).toInt = a.toInt.tdiv b.toInt := by
  have hlo := a.le_toInt
  have hhi := a.toInt_lt
  have habs : (a.toInt.tdiv b.toInt).natAbs = a.toInt.natAbs / b.toInt.natAbs := Int.natAbs_tdiv ..
  have hle := Nat.div_le_self a.toInt.natAbs b.toInt.natAbs
  have hmost : a.toInt = -2 ^ 31 → a.toInt.tdiv b.toInt < 2 ^ 31 := by
    intro ha
    have hb0 : b.toInt ≠ 0 := fun h0 => hb (BitVec.eq_of_toInt_eq (by simpa using h0))
    have hb1 : b.toInt ≠ -1 := fun h1 => h ⟨ha, h1⟩
    by_cases h1 : b.toInt = 1
    · rw [h1, Int.tdiv_one, ha]; decide
    · have h2 : a.toInt.natAbs / b.toInt.natAbs ≤ a.toInt.natAbs / 2 := Nat.div_le_div_left (by omega) (by decide)
      omega
  rw [BitVec.toInt_ofInt, Int.bmod_eq_of_le (by omega) (by omega)]

/-- The remainder of a truncated division is smaller than the divisor and has the sign of the dividend. -/
theorem tmod_range (a : ℤ) {b : ℤ} (hb : b ≠ 0) : |a.tmod b| < |b| ∧ 0 ≤ a.tmod b * a := by
  constructor
  · rw [Int.abs_eq_natAbs, Int.abs_eq_natAbs, Int.natAbs_tmod]
    exact_mod_cast Nat.mod_lt _ (Int.natAbs_pos.mpr hb)
  · rcases le_total 0 a with ha | ha
    · exact mul_nonneg (Int.tmod_nonneg b ha) ha
    · have hneg := Int.tmod_nonneg b (neg_nonneg.mpr ha)
      rw [Int.neg_tmod] at hneg
      exact mul_nonneg_of_nonpos_of_nonpos (by omega) ha

theorem toInt_eq_min_iff (a : Word) : a.toInt = -2 ^ 31 ↔ a = 0x80000000#32 :=
  BitVec.toInt_inj (y := 0x80000000#32)

theorem toInt_eq_neg_one_iff (a : Word) : a.toInt = -1 ↔ a = 0xFFFFFFFF#32 :=
  BitVec.toInt_inj (y := 0xFFFFFFFF#32)

theorem toInt_eq_zero_iff (a : Word) : a.toInt = 0 ↔ a = 0 := BitVec.toInt_inj (y := 0#32)

theorem toNat_cast_eq_zero_iff (a : Word) : (a.toNat : ℤ) = 0 ↔ a = 0 := by
  rw [Int.natCast_eq_zero]
  exact BitVec.toNat_inj (y := 0#32)

theorem exec_quotient_undefined {i : Instr} {s : State} {x : QuotientForm} (h : quotientForm s i = some x) (hu : x.undefined) :
    exec i s = divideUndefined x.rD x.oe x.rc s := by
  unfold quotientForm at h
  split at h <;> cases h <;> unfold QuotientForm.undefined at hu
  case h_1 rD rA rB oe rc =>
    simp only [true_and, toInt_eq_min_iff, toInt_eq_neg_one_iff, toInt_eq_zero_iff] at hu
    exact if_pos hu
  case h_2 rD rA rB oe rc =>
    simp only [Bool.false_eq_true, false_and, or_false, toNat_cast_eq_zero_iff] at hu
    exact if_pos hu

/-- A defined quotient, with its remainder. -/
theorem exec_quotient_defined {i : Instr} {s : State} {x : QuotientForm} (h : quotientForm s i = some x) (hu : ¬x.undefined) :
    ∃ q r, exec i s = arith x.rD q false x.oe x.rc s ∧ x.dividend = x.read q * x.divisor + r ∧ |r| < |x.divisor| ∧
      0 ≤ r * x.dividend := by
  unfold quotientForm at h
  split at h <;> cases h <;> unfold QuotientForm.undefined at hu <;> simp only [QuotientForm.read, if_true]
  case h_1 rD rA rB oe rc =>
    simp only [true_and, not_or] at hu
    obtain ⟨hzero, hmost⟩ := hu
    have hb : s.r rB ≠ 0 := fun h0 => hzero ((toInt_eq_zero_iff _).mpr h0)
    refine ⟨_, (s.r rA).toInt.tmod (s.r rB).toInt, if_neg ?_, ?_, tmod_range _ hzero⟩
    · rw [← toInt_eq_min_iff, ← toInt_eq_neg_one_iff]
      exact not_or.mpr ⟨hb, hmost⟩
    · rw [toInt_tdiv hb hmost]
      exact (Int.tdiv_mul_add_tmod ..).symm
  case h_2 rD rA rB oe rc =>
    simp only [Bool.false_eq_true, false_and, or_false] at hu
    have hb : s.r rB ≠ 0 := fun h0 => hu ((toNat_cast_eq_zero_iff _).mpr h0)
    have hpos : 0 < (s.r rB).toNat := Nat.pos_of_ne_zero (by simpa using hu)
    refine ⟨_, (((s.r rA).toNat % (s.r rB).toNat : ℕ) : ℤ), if_neg hb, ?_, ?_, by positivity⟩
    · have hq : (BitVec.ofNat 32 ((s.r rA).toNat / (s.r rB).toNat)).toNat = (s.r rA).toNat / (s.r rB).toNat :=
        Nat.mod_eq_of_lt ((Nat.div_le_self ..).trans_lt (s.r rA).isLt)
      rw [if_neg (by decide), hq]
      exact_mod_cast (Nat.div_add_mod' ..).symm
    · rw [Nat.abs_cast, Nat.abs_cast]
      exact_mod_cast Nat.mod_lt _ hpos

theorem withSO_getLsbD_zero (c : BitVec 3) (xer : Word) : (withSO c xer).getLsbD 0 = xerSO xer := by
  rw [withSO, BitVec.getLsbD_append]
  simp

/-- What a division with an undefined quotient does. -/
theorem divideUndefined_spec (rD : Reg) (oe rc : Bool) (s : State) :
    ∃ t, divideUndefined rD oe rc s = .next t ∧ xerCA t.xer = xerCA s.xer ∧ overflowed oe true s t ∧
      (if rc then bit t.cr 3 = xerSO t.xer ∧ sameCrBut s t 0 else t.cr = s.cr) ∧
      sameXerRest s t ∧ sameGprsBut s t [rD] ∧ t.mem = s.mem ∧
      t = { s with gpr := t.gpr, cr := t.cr, xer := t.xer, pc := s.pc + 4, freeCount := t.freeCount } := by
  refine ⟨_, rfl, ?_, ?_, ?_, ?_, ?_, ?_, ?_⟩
  · cases rc <;> cases oe <;> simp [State.setOVIf]
  · exact overflowed_setOVIf oe true s (s.draw.2.setR rD (s.draw.1.setWidth 32)) _ (by cases rc <;> simp) (by simp) (by simp)
  · cases rc with
    | false => simp
    | true =>
      simp only [if_true, advance_cr, advance_xer]
      refine ⟨?_, fun g hg => ?_⟩
      · simp only [State.setCr]
        rw [bit_setCrField _ _ _ _ (by decide)]
        exact (if_pos rfl).trans (withSO_getLsbD_zero ..)
      · simp only [State.setCr, setOVIf_cr, setR_cr, draw_cr]
        exact crField_setCrField_ne _ _ _ _ hg
  · unfold sameXerRest
    have hov := xerRest_setOV (s.draw.2.setR rD (s.draw.1.setWidth 32)) true
    cases oe with
    | false => cases rc <;> simp [State.setOVIf]
    | true => cases rc <;> simpa [State.setOVIf] using hov
  · intro n hn
    rw [r_congr (s := s.draw.2.setR rD (s.draw.1.setWidth 32)) (by cases rc <;> simp)]
    exact r_setR_ne s.draw.2 _ (by simpa using hn)
  · cases rc <;> simp
  · cases oe <;> cases rc <;> rfl

/-- Settles O19: the shared end of the family on the product, on the quotient, and on free values. -/
theorem multiplyDivideResult : Obligations.MultiplyDivideResult := by
  refine ⟨fun i s x h => ?_, fun i s x h hu => ?_, fun i s x h hu => ?_⟩
  · obtain ⟨t, hx, hr, hca, hover, hrec, hrest, hgpr, hmem, honly, hpc⟩ := arith_spec x.rD
      (BitVec.ofInt 32 (if x.high then x.product / 2 ^ 32 else x.product))
      (decide (x.product < -2 ^ 31 ∨ 2 ^ 31 ≤ x.product)) x.oe x.rc s
    exact ⟨t, (exec_productForm h).trans hx, hr, hca, hover, hr.symm ▸ hrec, hrest, hgpr, sameMemory_of_mem hmem, honly, hpc⟩
  · obtain ⟨q, r, hexec, heq, hlt, hsign⟩ := exec_quotient_defined h hu
    obtain ⟨t, hx, hr, hca, hover, hrec, hrest, hgpr, hmem, honly, hpc⟩ := arith_spec x.rD q false x.oe x.rc s
    exact ⟨t, r, hexec.trans hx, hr.symm ▸ heq, hlt, hsign, hca, hover, hr.symm ▸ hrec, hrest, hgpr, sameMemory_of_mem hmem,
      honly, hpc⟩
  · obtain ⟨t, hx, hca, hover, hcr, hrest, hgpr, hmem, hframe⟩ := divideUndefined_spec x.rD x.oe x.rc s
    exact ⟨t, (exec_quotient_undefined h hu).trans hx, hca, hover, hcr, hrest, hgpr, sameMemory_of_mem hmem, hframe⟩

end Sys2Proof.Proofs

/-! Compares and logical instructions, bit by bit (41_integer_compare_logical.md R280 to R302). -/

namespace Sys2Proof.Proofs

open Sys2Proof Sys2Proof.Machine Sys2Proof.Laws

/-! Compares (R280 to R285). -/

/-- LT, GT, EQ of two integers. -/
def orderOf (a b : Int) : BitVec 3 := if a < b then 4#3 else if b < a then 2#3 else 1#3

theorem signedOrder_eq (a b : Word) : signedOrder a b = orderOf a.toInt b.toInt := by
  unfold signedOrder orderOf
  simp only [BitVec.slt_iff_toInt_lt]

theorem unsignedOrder_eq (a b : Word) : unsignedOrder a b = orderOf a.toNat b.toNat := by
  unfold unsignedOrder orderOf
  simp only [BitVec.ult_iff_toNat_lt, Nat.cast_lt]

theorem withSO_orderOf (a b : Int) (xer : Word) :
    withSO (orderOf a b) xer = crBits (decide (a < b)) (decide (b < a)) (decide (a = b)) (xerSO xer) := by
  unfold withSO orderOf crBits
  rcases lt_trichotomy a b with h | h | h
  · rw [if_pos h, decide_eq_true h, decide_eq_false h.not_gt, decide_eq_false h.ne]
    cases xerSO xer <;> rfl
  · rw [if_neg h.not_lt, if_neg h.not_gt, decide_eq_false h.not_lt, decide_eq_false h.not_gt, decide_eq_true h]
    cases xerSO xer <;> rfl
  · rw [if_neg h.not_gt, if_pos h, decide_eq_true h, decide_eq_false h.not_gt, decide_eq_false h.ne']
    cases xerSO xer <;> rfl

theorem toNat_zext16 (v : BitVec 16) : (zext16 v).toNat = v.toNat :=
  BitVec.toNat_setWidth_of_le (by decide)

theorem exec_compareForm {i : Instr} {s : State} {x : CompareForm} (h : compareForm s i = some x) :
    exec i s = compareWith x.crfD (orderOf x.a x.b) s := by
  unfold compareForm at h
  split at h <;> cases h
  case h_1 crfD l rA simm => exact toInt_sext16 simm ▸ congrArg (compareWith crfD · s) (signedOrder_eq ..)
  case h_2 crfD l rA rB => exact congrArg (compareWith crfD · s) (signedOrder_eq ..)
  case h_3 crfD l rA uimm => exact toNat_zext16 uimm ▸ congrArg (compareWith crfD · s) (unsignedOrder_eq ..)
  case h_4 crfD l rA rB => exact congrArg (compareWith crfD · s) (unsignedOrder_eq ..)

/-! Logical instructions (R286 to R301). -/

theorem bit_zext16 (v : BitVec 16) {k : Nat} (hk : k < 32) : bit (zext16 v) k = lowImm v k := by
  unfold bit zext16 lowImm
  rw [BitVec.getLsbD_setWidth]
  by_cases h : 16 ≤ k
  · simp [h, show 31 - k < 32 by omega]
  · simp [h, show 31 - k < 32 by omega, BitVec.getLsbD_of_ge v (31 - k) (by omega)]

theorem bit_high16 (v : BitVec 16) {k : Nat} (hk : k < 32) : bit (high16 v) k = highImm v k := by
  unfold bit high16 highImm
  rw [BitVec.getLsbD_append]
  by_cases h : k < 16
  · rw [if_neg (by omega), show 31 - k - 16 = 15 - k by omega]
    simp [h]
  · rw [if_pos (by omega)]
    simp [h]

/-- A sign extension of the low `n` bits repeats their first one. -/
theorem bit_signExtend (v : Word) {n k : Nat} (hn : 0 < n ∧ n ≤ 32) (hk : k < 32) :
    bit ((v.setWidth n).signExtend 32) k = bit v (max k (32 - n)) := by
  unfold bit
  rw [BitVec.getLsbD_signExtend, BitVec.msb_eq_getLsbD_last, BitVec.getLsbD_setWidth, BitVec.getLsbD_setWidth]
  by_cases h : 31 - k < n
  · simp [h, show max k (32 - n) = k by omega, show 31 - k < 32 by omega]
  · simp [h, show 31 - max k (32 - n) = n - 1 by omega, show 31 - k < 32 by omega, show n - 1 < n by omega]

theorem exec_bitForm {i : Instr} {s : State} {x : BitForm} (h : bitForm s i = some x) :
    ∃ v, exec i s = logical x.rA v x.rc s ∧ ∀ k, k < 32 → bit v k = x.bitOf k := by
  unfold bitForm at h
  split at h <;> cases h
  case h_1 | h_3 | h_5 => exact ⟨_, rfl, fun k hk => by simp [bit_zext16 _ hk]⟩
  case h_2 | h_4 | h_6 => exact ⟨_, rfl, fun k hk => by simp [bit_high16 _ hk]⟩
  case h_7 | h_8 | h_9 | h_10 | h_11 => exact ⟨_, rfl, fun k _ => by simp⟩
  case h_12 => exact ⟨_, rfl, fun k _ => by rw [bit_not, bit_xor]; exact Bool.not_not _⟩
  case h_13 | h_14 => exact ⟨_, rfl, fun k _ => by simp⟩
  case h_15 => exact ⟨_, rfl, fun k hk => bit_signExtend _ (by decide) hk⟩
  case h_16 => exact ⟨_, rfl, fun k hk => bit_signExtend _ (by decide) hk⟩

/-- The count of the zeros before the first one among the `n` low bits. -/
theorem leadingZeros_result (w : Word) : ∀ n : Nat,
    leadingZeros w n ≤ n ∧ (∀ k, k < leadingZeros w n → w.getLsbD (n - 1 - k) = false) ∧
      (leadingZeros w n < n → w.getLsbD (n - 1 - leadingZeros w n) = true)
  | 0 => by simp [leadingZeros]
  | n + 1 => by
    obtain ⟨hle, hzeros, hone⟩ := leadingZeros_result w n
    unfold leadingZeros
    cases hw : w.getLsbD n with
    | true => simp [hw]
    | false =>
      rw [if_neg Bool.false_ne_true]
      refine ⟨by omega, fun k hk => ?_, fun hlt => ?_⟩
      · cases k with
        | zero => exact hw
        | succ k => rw [show n + 1 - 1 - (k + 1) = n - 1 - k by omega]; exact hzeros k (by omega)
      · rw [show n + 1 - 1 - (leadingZeros w n + 1) = n - 1 - leadingZeros w n by omega]
        exact hone (by omega)

/-- Settles O20: the shared ends of the two families on the order of the operands and on the bits of the result. -/
theorem compareLogicalResult : Obligations.CompareLogicalResult := by
  refine ⟨fun i s x h => ?_, fun i s x h => ?_, fun rA rS rc s => ?_⟩
  · obtain ⟨t, hx, hfield, hcr, hframe⟩ := compareWith_spec x.crfD (orderOf x.a x.b) s
    exact ⟨t, (exec_compareForm h).trans hx, hfield.trans (withSO_orderOf ..), hcr,
      sameMemory_of_mem (by rw [hframe]), hframe⟩
  · obtain ⟨v, hexec, hbits⟩ := exec_bitForm h
    obtain ⟨t, hx, hr, hrec, hgpr, hmem, hframe⟩ := logical_spec x.rA v x.rc s
    exact ⟨t, hexec.trans hx, hr.symm ▸ hbits, hr.symm ▸ hrec, hgpr, sameMemory_of_mem hmem, hframe⟩
  · obtain ⟨hle, hzeros, hone⟩ := leadingZeros_result (s.r rS) 32
    obtain ⟨t, hx, hr, hrec, hgpr, hmem, hframe⟩ := logical_spec rA (BitVec.ofNat 32 (leadingZeros (s.r rS) 32)) rc s
    have hcount : (t.r rA).toNat = leadingZeros (s.r rS) 32 := by
      rw [hr]
      exact Nat.mod_eq_of_lt (by omega)
    refine ⟨t, hx, hcount ▸ hle, hcount ▸ hzeros, hcount ▸ hone, hr.symm ▸ hrec, hgpr, sameMemory_of_mem hmem, hframe⟩

end Sys2Proof.Proofs

/-! Rotations and shifts, bit by bit (42_rotate_shift.md R320 to R329). -/

namespace Sys2Proof.Proofs

open Sys2Proof Sys2Proof.Machine Sys2Proof.Laws

/-! Masks and rotations (R320). -/

theorem bit_onesFrom (n : Nat) {k : Nat} (hk : k < 32) : bit (onesFrom n) k = decide (n ≤ k) := by
  unfold bit onesFrom
  rw [BitVec.getLsbD_ushiftRight, BitVec.getLsbD_allOnes]
  exact decide_eq_decide.mpr (by omega)

theorem bit_mask (mb me : BitVec 5) {k : Nat} (hk : k < 32) : bit (mask mb me) k = inMask mb me k := by
  have hlow : (!decide (me.toNat + 1 ≤ k)) = decide (k ≤ me.toNat) := by
    rw [← decide_not]
    exact decide_eq_decide.mpr (by omega)
  unfold mask inMask
  split
  · rw [bit_and, bit_not, bit_onesFrom _ hk, bit_onesFrom _ hk, hlow]
  · rw [bit_or, bit_not, bit_onesFrom _ hk, bit_onesFrom _ hk, hlow]

theorem bit_rotl32 (v : Word) (n : BitVec 5) {k : Nat} (hk : k < 32) : bit (rotl32 v n) k = bit v ((k + n.toNat) % 32) := by
  have hn := n.isLt
  unfold bit rotl32
  rw [BitVec.getLsbD_rotateLeft, Nat.mod_eq_of_lt hn]
  by_cases h : 31 - k < n.toNat
  · rw [cond_eq_ite, if_pos (by simpa using h)]
    congr 1
    omega
  · rw [cond_eq_ite, if_neg (by simpa using h), decide_eq_true (by omega), Bool.true_and]
    congr 1
    omega

/-- A rotation under a mask, with zeros or the bits of a base outside it. -/
theorem exec_rotateForm {i : Instr} {s : State} {x : RotateForm} (h : rotateForm s i = some x) :
    ∃ v, exec i s = rotated x.rA v x.rc s ∧
      ∀ k, k < 32 → bit v k = if inMask x.mb x.me k then bit x.source ((k + x.amount) % 32) else bit x.base k := by
  have hand (v : Word) (n mb me : BitVec 5) (k : Nat) (hk : k < 32) :
      bit (rotl32 v n &&& mask mb me) k = if inMask mb me k then bit v ((k + n.toNat) % 32) else bit 0#32 k := by
    rw [bit_and, bit_mask mb me hk, bit_rotl32 v n hk, bit_zero]
    cases inMask mb me k <;> simp
  unfold rotateForm at h
  split at h <;> cases h
  case h_1 rA rS sh mb me rc => exact ⟨_, rfl, hand _ sh mb me⟩
  case h_2 rA rS rB mb me rc =>
    have hn : (shiftAmount (s.r rB)).toNat = (s.r rB).toNat % 32 := BitVec.toNat_setWidth ..
    exact ⟨_, rfl, hn ▸ hand _ (shiftAmount (s.r rB)) mb me⟩
  case h_3 rA rS sh mb me rc =>
    exact ⟨_, rfl, fun k hk => by rw [bit_insertBits, bit_mask mb me hk, bit_rotl32 _ sh hk]⟩

/-! Shifts (R326 to R329). -/

theorem bit_shiftLeft (v : Word) (n : Nat) {k : Nat} (hk : k < 32) :
    bit (v <<< n) k = (decide (k + n < 32) && bit v (k + n)) := by
  unfold bit
  rw [BitVec.getLsbD_shiftLeft]
  by_cases h : k + n < 32
  · simp [h, show 31 - k < 32 by omega, show ¬31 - k < n by omega, show 31 - k - n = 31 - (k + n) by omega]
  · simp [h, show 31 - k < n by omega]

theorem bit_shiftRight (v : Word) (n : Nat) {k : Nat} (hk : k < 32) :
    bit (v >>> n) k = (decide (n ≤ k) && bit v (k - n)) := by
  unfold bit
  rw [BitVec.getLsbD_ushiftRight]
  by_cases h : n ≤ k
  · simp [h, show n + (31 - k) = 31 - (k - n) by omega]
  · simp [h, BitVec.getLsbD_of_ge v (n + (31 - k)) (by omega)]

theorem bit_sshiftRight (v : Word) (n : Nat) {k : Nat} (hk : k < 32) :
    bit (v.sshiftRight n) k = if n ≤ k then bit v (k - n) else bit v 0 := by
  unfold bit
  rw [BitVec.getLsbD_sshiftRight, BitVec.msb_eq_getLsbD_last]
  by_cases h : n ≤ k
  · simp [h, show n + (31 - k) = 31 - (k - n) by omega, show ¬32 ≤ 31 - k by omega, show ¬32 ≤ 31 - (k - n) by omega]
  · simp [h, show ¬n + (31 - k) < 32 by omega, show ¬32 ≤ 31 - k by omega]

/-- The six low bits of an amount: five of them, and bit 26. -/
theorem toNat_mod_64 (b : Word) : b.toNat % 64 = (if bit b 26 then 32 else 0) + (shiftAmount b).toNat := by
  have hbit : bit b 26 = decide (b.toNat / 32 % 2 = 1) := by
    rw [bit, BitVec.getLsbD, Nat.testBit_eq_decide_div_mod_eq]
  have hlow : (shiftAmount b).toNat = b.toNat % 32 := BitVec.toNat_setWidth ..
  rw [hbit, hlow]
  split
  · next h => have := of_decide_eq_true h; omega
  · next h => have := of_decide_eq_false (eq_false_of_ne_true h); omega

theorem toNat_neg_amount (n : BitVec 5) : (-n).toNat = (32 - n.toNat) % 32 := BitVec.toNat_neg n

/-- The mask of a right shift covers the bits that hold bits of the word. -/
theorem bit_shiftRightMask (n : BitVec 5) (big : Bool) {k : Nat} (hk : k < 32) :
    bit (shiftRightMask n big) k = decide ((if big then 32 else 0) + n.toNat ≤ k) := by
  unfold shiftRightMask
  cases big with
  | true =>
    rw [if_pos rfl, if_pos rfl, decide_eq_false (by omega)]
    exact bit_zero k
  | false =>
    rw [if_neg Bool.false_ne_true, if_neg Bool.false_ne_true, bit_mask _ _ hk, inMask, if_pos (by decide +revert),
      decide_eq_true (show k ≤ (31 : BitVec 5).toNat from Nat.le_of_lt_succ hk), Bool.and_true, Nat.zero_add]

/-- A bit of a right shift is a bit of the rotation. -/
theorem bit_rotated_right (v : Word) (n : BitVec 5) (big : Bool) {k : Nat} (hk : k < 32)
    (h : (if big then 32 else 0) + n.toNat ≤ k) :
    bit (rotl32 v (-n)) k = bit v (k - ((if big then 32 else 0) + n.toNat)) := by
  have hn := n.isLt
  cases big with
  | true => simp only [if_true] at h; omega
  | false =>
    simp only [Bool.false_eq_true, if_false, Nat.zero_add] at h ⊢
    rw [bit_rotl32 _ _ hk, toNat_neg_amount]
    congr 1
    omega

theorem shiftLeft_eq (v b : Word) :
    rotl32 v (shiftAmount b) &&& (if bit b 26 then 0 else mask 0 (31 - shiftAmount b)) = v <<< (b.toNat % 64) := by
  apply eq_of_bit
  intro k hk
  have hn := (shiftAmount b).isLt
  rw [bit_and, bit_shiftLeft _ _ hk, toNat_mod_64, bit_rotl32 _ _ hk]
  cases bit b 26 with
  | true =>
    rw [if_pos rfl, if_pos rfl, decide_eq_false (by omega), Bool.false_and]
    exact (congrArg _ (bit_zero k)).trans (Bool.and_false _)
  | false =>
    have hme : (31 - shiftAmount b).toNat = 31 - (shiftAmount b).toNat := by bv_omega
    rw [if_neg Bool.false_ne_true, if_neg Bool.false_ne_true, bit_mask _ _ hk, inMask, hme,
      show (0 : BitVec 5).toNat = 0 from rfl, if_pos (Nat.zero_le _), Nat.zero_add]
    by_cases h : k + (shiftAmount b).toNat < 32
    · rw [Nat.mod_eq_of_lt h, decide_eq_true h, decide_eq_true (show k ≤ 31 - (shiftAmount b).toNat by omega)]
      simp
    · rw [decide_eq_false h, decide_eq_false (show ¬k ≤ 31 - (shiftAmount b).toNat by omega)]
      simp

theorem shiftRight_eq (v : Word) (n : BitVec 5) (big : Bool) :
    rotl32 v (-n) &&& shiftRightMask n big = v >>> ((if big then 32 else 0) + n.toNat) := by
  apply eq_of_bit
  intro k hk
  rw [bit_and, bit_shiftRightMask n big hk, bit_shiftRight _ _ hk]
  by_cases h : (if big then 32 else 0) + n.toNat ≤ k
  · rw [bit_rotated_right v n big hk h, Bool.and_comm]
  · rw [decide_eq_false h, Bool.and_false, Bool.false_and]

/-- The result of an algebraic shift: copies of the sign outside the mask. -/
theorem shiftRightAlgebraic_value (v : Word) (n : BitVec 5) (big : Bool) :
    (shiftRightAlgebraic v n big).1 = v.sshiftRight ((if big then 32 else 0) + n.toNat) := by
  have hsign (k : Nat) (hk : k < 32) : bit (if bit v 0 then BitVec.allOnes 32 else 0) k = bit v 0 := by
    cases bit v 0 with
    | true => rw [if_pos rfl, bit, BitVec.getLsbD_allOnes, decide_eq_true (by omega)]
    | false => exact bit_zero k
  apply eq_of_bit
  intro k hk
  unfold shiftRightAlgebraic
  dsimp only
  rw [bit_or, bit_and, bit_and, bit_not, bit_shiftRightMask n big hk, hsign k hk, bit_sshiftRight _ _ hk]
  by_cases h : (if big then 32 else 0) + n.toNat ≤ k
  · rw [bit_rotated_right v n big hk h, if_pos h, decide_eq_true h]
    simp
  · rw [if_neg h, decide_eq_false h]
    simp

theorem bne_zero_eq_decide (v : Word) : (v != 0) = decide (v ≠ 0) := by
  rw [Bool.eq_iff_iff]
  simp

theorem ne_zero_iff_bit (v : Word) : v ≠ 0 ↔ ∃ k, k < 32 ∧ bit v k = true := by
  constructor
  · intro h
    by_contra hno
    refine h (eq_of_bit fun k hk => ?_)
    rw [show bit (0 : Word) k = false from bit_zero k]
    exact eq_false_of_ne_true fun hb => hno ⟨k, hk, hb⟩
  · rintro ⟨k, _, hb⟩ rfl
    exact absurd hb (by rw [show bit (0 : Word) k = false from bit_zero k]; decide)

theorem mod_two_pow_ne_zero_iff (v : Word) (n : Nat) :
    v.toNat % 2 ^ n ≠ 0 ↔ ∃ k, k < 32 ∧ 32 ≤ k + n ∧ bit v k = true := by
  have hmod : v.toNat % 2 ^ n = 0 ↔ ∀ j, j < n → v.getLsbD j = false := by
    constructor
    · intro h j hj
      have hbit : v.toNat.testBit j = false := by simpa [Nat.testBit_mod_two_pow, hj] using congrArg (Nat.testBit · j) h
      exact hbit
    · intro h
      apply Nat.eq_of_testBit_eq
      intro j
      rw [Nat.testBit_mod_two_pow, Nat.zero_testBit]
      by_cases hj : j < n
      · exact (congrArg _ (h j hj)).trans (Bool.and_false _)
      · rw [decide_eq_false hj, Bool.false_and]
  rw [ne_eq, hmod]
  constructor
  · intro h
    obtain ⟨j, hj⟩ := not_forall.mp h
    obtain ⟨hjn, hb⟩ := Classical.not_imp.mp hj
    have hb := eq_true_of_ne_false hb
    have hj32 : j < 32 := BitVec.lt_of_getLsbD hb
    exact ⟨31 - j, by omega, by omega, by rw [bit, show 31 - (31 - j) = j by omega]; exact hb⟩
  · rintro ⟨k, hk, hkn, hb⟩ h
    exact absurd (h (31 - k) (by omega)) (by rw [show v.getLsbD (31 - k) = true from hb]; decide)

/-- The carry of an algebraic shift: the bits that the mask leaves out are those that fall off at the right. -/
theorem shiftRightAlgebraic_carry (v : Word) (n : BitVec 5) (big : Bool) :
    (shiftRightAlgebraic v n big).2 = lostOnes v ((if big then 32 else 0) + n.toNat) := by
  have hn := n.isLt
  have hsign : bit v 0 = decide (v.toInt < 0) := by
    rw [bit, ← BitVec.msb_eq_getLsbD_last, BitVec.msb_eq_toInt]
  have hlost : rotl32 v (-n) &&& ~~~(shiftRightMask n big) ≠ 0 ↔ v.toNat % 2 ^ ((if big then 32 else 0) + n.toNat) ≠ 0 := by
    rw [ne_zero_iff_bit, mod_two_pow_ne_zero_iff]
    constructor
    · rintro ⟨k, hk, hb⟩
      rw [bit_and, bit_not, bit_shiftRightMask n big hk, bit_rotl32 _ _ hk, Bool.and_eq_true] at hb
      obtain ⟨hv, hmask⟩ := hb
      have hout : ¬((if big then 32 else 0) + n.toNat ≤ k) := by simpa using hmask
      rw [toNat_neg_amount] at hv
      refine ⟨_, Nat.mod_lt _ (by decide), ?_, hv⟩
      split <;> rename_i hbig <;> simp only [hbig, if_true, Bool.false_eq_true, if_false] at hout <;> omega
    · rintro ⟨k, hk, hkn, hb⟩
      refine ⟨(k + n.toNat) % 32, Nat.mod_lt _ (by decide), ?_⟩
      rw [bit_and, bit_not, bit_shiftRightMask n big (Nat.mod_lt _ (by decide)), bit_rotl32 _ _ (Nat.mod_lt _ (by decide)),
        toNat_neg_amount, show ((k + n.toNat) % 32 + (32 - n.toNat) % 32) % 32 = k by omega, hb, decide_eq_false]
      · rfl
      · split <;> rename_i hbig <;> simp only [hbig, if_true, Bool.false_eq_true, if_false] at hkn <;> omega
  unfold lostOnes
  rw [← hsign, ← decide_eq_decide.mpr hlost]
  exact congrArg (bit v 0 && ·) (bne_zero_eq_decide _)

/-- A shift without a carry. -/
theorem exec_shiftForm_plain {i : Instr} {s : State} {x : ShiftForm} (h : shiftForm s i = some x) (hc : x.carry = none) :
    exec i s = rotated x.rA x.value x.rc s := by
  unfold shiftForm at h
  split at h <;> cases h <;> cases hc
  case h_1 rA rS rB rc => exact shiftLeft_eq (s.r rS) (s.r rB) ▸ rfl
  case h_2 rA rS rB rc => exact (toNat_mod_64 (s.r rB)).symm ▸ shiftRight_eq (s.r rS) _ (bit (s.r rB) 26) ▸ rfl

/-- A shift that writes CA. -/
theorem exec_shiftForm_algebraic {i : Instr} {s : State} {x : ShiftForm} {c : Bool} (h : shiftForm s i = some x)
    (hc : x.carry = some c) : exec i s = shiftedAlgebraic x.rA (x.value, c) x.rc s := by
  have hpair (v : Word) (n : BitVec 5) (big : Bool) :
      shiftRightAlgebraic v n big =
        (v.sshiftRight ((if big then 32 else 0) + n.toNat), lostOnes v ((if big then 32 else 0) + n.toNat)) :=
    Prod.ext (shiftRightAlgebraic_value ..) (shiftRightAlgebraic_carry ..)
  unfold shiftForm at h
  split at h <;> cases h <;> cases hc
  case h_3 rA rS rB rc =>
    rw [toNat_mod_64, ← hpair]
    rfl
  case h_4 rA rS sh rc =>
    have := hpair (s.r rS) sh false
    rw [if_neg Bool.false_ne_true, Nat.zero_add] at this
    rw [← this]
    rfl

/-- Settles O21: a rotation under a mask, and the shifts as rotations under the masks of their amounts. -/
theorem rotateShiftResult : Obligations.RotateShiftResult := by
  refine ⟨fun i s x h => ?_, fun i s x h => ?_⟩
  · obtain ⟨v, hexec, hbits⟩ := exec_rotateForm h
    obtain ⟨t, hx, hr, hrec, hgpr, hmem, hframe⟩ := rotated_spec x.rA v x.rc s
    exact ⟨t, hexec.trans hx, hr.symm ▸ hbits, hr.symm ▸ hrec, hgpr, sameMemory_of_mem hmem, hframe⟩
  · cases hc : x.carry with
    | none =>
      obtain ⟨t, hx, hr, hrec, hgpr, hmem, hframe⟩ := rotated_spec x.rA x.value x.rc s
      have hxer : t.xer = s.xer := by rw [hframe]
      have hpc : t.pc = s.pc + 4 := by rw [hframe]
      refine ⟨t, (exec_shiftForm_plain h hc).trans hx, hr, congrArg xerCA hxer, by rw [hxer], hr.symm ▸ hrec, hgpr,
        sameMemory_of_mem hmem, ?_, hpc⟩
      rw [onlyInteger, hxer, hpc]
      exact hframe
    | some c =>
      obtain ⟨t, hx, hr, hca, hrest, hrec, hgpr, hmem, honly, hpc⟩ := shiftedAlgebraic_spec x.rA (x.value, c) x.rc s
      exact ⟨t, (exec_shiftForm_algebraic h hc).trans hx, hr, hca, hrest, hr.symm ▸ hrec, hgpr, sameMemory_of_mem hmem, honly,
        hpc⟩

end Sys2Proof.Proofs

/-! The step: requests, reset, ticks, and the instruction at CIA with what follows it (60_exceptions.md R631, R646, R660, R688 to R691). -/

namespace Sys2Proof.Proofs

open Sys2Proof Sys2Proof.Machine Sys2Proof.Laws

/-- Settles O47: the entry of the shared operation. -/
theorem exceptionEntry : Obligations.ExceptionEntry := fun x srr0 info _ h => take_enters x srr0 info h

/-! Ticks (10_state.md R43, R48). -/

theorem bit_zero_eq_decide (v : Word) : bit v 0 = decide (2 ^ 31 ≤ v.toNat) := by
  rw [bit, ← BitVec.msb_eq_getLsbD_last, BitVec.msb_eq_decide]

/-- The sign of the decrementer goes from 0 to 1 exactly where it counts down from 0. -/
theorem decrementer_request (v : Word) : (!bit v 0 && bit (v - 1) 0) = decide (v = 0) := by
  have hv := v.isLt
  have hsub : (v - 1).toNat = (2 ^ 32 - 1 + v.toNat) % 2 ^ 32 := BitVec.toNat_sub ..
  have hzero : v = 0 ↔ v.toNat = 0 := (BitVec.toNat_inj (y := 0#32)).symm
  rw [bit_zero_eq_decide, bit_zero_eq_decide, Bool.eq_iff_iff, Bool.and_eq_true, Bool.not_eq_true', decide_eq_false_iff_not,
    decide_eq_true_iff, decide_eq_true_iff, hzero, hsub]
  omega

/-- Settles O52: outside checkstop, with the change of sign of DEC as the test for 0. -/
theorem tickCounts : Obligations.TickCounts := by
  intro s h
  rw [State.deliver, State.tick, if_neg (by simp [h])]
  dsimp only
  rw [decrementer_request]

/-! Reset of a running machine (R660; 10_state.md R80). -/

theorem bit_resetMsr (ip : Bool) (m : Word) {k : Nat} (hk : k < 32) :
    bit (resetMsr ip m) k = if k = 25 then ip else bit m k && decide (k = 19) := by
  rw [resetMsr, bit_setBit _ _ _ _ (by decide) hk, bit_and, bit_bitMask _ _ (by decide) hk]

theorem resetMsr_others (ip : Bool) (m : Word) : resetMsr ip m &&& 0xFFFFEFBF#32 = 0 := by
  apply eq_of_bit
  intro k hk
  have hmask : bit 0xFFFFEFBF#32 k = decide (k ≠ 19 ∧ k ≠ 25) := by decide +revert
  rw [bit_and, bit_resetMsr ip m hk, hmask, show bit (0 : Word) k = false from bit_zero k]
  by_cases h25 : k = 25
  · simp [h25]
  · by_cases h19 : k = 19 <;> simp [h19, h25]

theorem resetVector (ip : Bool) (m : Word) :
    vectorBase (resetMsr ip m) + 0x100 = if ip then 0xFFF00100#32 else 0x100#32 := by
  have hip : msrIP (resetMsr ip m) = ip := bit_resetMsr ip m (by decide)
  rw [vectorBase, hip]
  cases ip <;> rfl

theorem bits_low_of_and_high (v : Word) : bits (v &&& 0xFFFF0000#32) 16 16 = 0 := by
  refine (bits_congr (b := 0) (by decide) fun k hlo hhi => ?_).trans (by decide)
  have hmask : bit 0xFFFF0000#32 k = false := by decide +revert
  rw [bit_and, hmask, Bool.and_false]
  exact (bit_zero k).symm

/-- Nothing but the registers that reset leaves undefined differs. -/
def onlyUndefined (s t : State) : Prop :=
  t = { s with
    srr0 := t.srr0, srr1 := t.srr1, icadr := t.icadr, bar := t.bar, cmpA := t.cmpA, cmpB := t.cmpB, cmpC := t.cmpC
    cmpD := t.cmpD, cmpE := t.cmpE, cmpF := t.cmpF, cmpG := t.cmpG, cmpH := t.cmpH, countA := t.countA, countB := t.countB
    freeCount := t.freeCount }

theorem onlyUndefined.trans {s t u : State} (h : onlyUndefined s t) (h' : onlyUndefined t u) : onlyUndefined s u := by
  unfold onlyUndefined at h h'
  rw [h] at h'
  exact h'

theorem onlyUndefined.drawInto {s t : State} (h : onlyUndefined s t) {set : State → Word → State}
    (hset : ∀ u v, onlyUndefined u (set u v)) : onlyUndefined s (t.drawInto set) :=
  have hdraw : onlyUndefined t t.draw.2 := rfl
  (h.trans hdraw).trans (hset ..)

theorem undefinedAtReset_only (s : State) : onlyUndefined s s.undefinedAtReset := by
  unfold State.undefinedAtReset
  dsimp only
  iterate 14 refine onlyUndefined.drawInto ?_ fun _ _ => rfl
  rfl

theorem undefinedAtReset_counters (s : State) :
    (∃ v, s.undefinedAtReset.countA = v &&& 0xFFFF0000#32) ∧ ∃ v, s.undefinedAtReset.countB = v &&& 0xFFFF0000#32 :=
  ⟨⟨_, rfl⟩, _, rfl⟩

/-- Settles O10: the registers that reset writes, one by one, and those that it does not touch. -/
theorem resetOfRunningMachine : Obligations.ResetOfRunningMachine := by
  intro s x y
  have hme : msrME (resetMsr s.platform.resetIp s.msr) = msrME s.msr :=
    (bit_resetMsr s.platform.resetIp s.msr (by decide)).trans (Bool.and_true _)
  have hip : msrIP (resetMsr s.platform.resetIp s.msr) = s.platform.resetIp := bit_resetMsr s.platform.resetIp s.msr (by decide)
  have honly := undefinedAtReset_only s
  obtain ⟨⟨a, hA⟩, b, hB⟩ := undefinedAtReset_counters s
  unfold State.doReset
  generalize s.undefinedAtReset = u at honly hA hB ⊢
  rw [onlyUndefined, hA, hB] at honly
  rw [honly]
  exact ⟨hme, hip, resetMsr_others .., resetVector .., rfl, rfl, rfl, rfl, rfl, rfl, rfl, bits_low_of_and_high a,
    bits_low_of_and_high b, rfl, rfl, rfl, rfl, rfl, rfl, rfl, rfl, rfl, rfl, rfl, rfl, rfl, rfl, rfl, rfl, rfl, rfl, rfl⟩

/-! Asynchronous requests (R631, R668, R688, R698, R700). -/

/-- The step of a machine that runs and has nothing to hear from outside, whatever it requests. -/
theorem step_runStep {s : State} (hevents : s.events = []) (hcut : s.cutShort = false) (hstop : s.checkstop = false)
    (hreset : s.resetAsserted = false) (hdbg : s.inDebug = false) (hinbox : s.port.inbox = []) :
    step s = settled s.runStep := by
  have hdrain : s.drainPort = s := by rw [State.drainPort, hinbox, List.foldl_nil, ← hinbox]
  simp [step, State.stepOnce, deliverEvents_nil hevents, hstop, hreset, hcut, State.proceed, hdbg, hdrain]

/-- What an entry leaves of the requests. -/
theorem take_requests (x : Exc) (srr0 : Word) (info : BitVec 16) {s : State} (h : s.inDebug = false) :
    (s.take x srr0 info).nmiPending = s.nmiPending ∧ (s.take x srr0 info).mebPending = s.mebPending ∧
      (s.take x srr0 info).decPending = s.decPending := by
  unfold State.take
  rw [takeVia_eq s x x.causeBit srr0 info h]
  exact ⟨rfl, rfl, rfl⟩

/-- An entry from a state that differs in its requests alone. -/
theorem take_enters_requests (x : Exc) (srr0 : Word) (info : BitVec 16) {s u : State} (h : s.inDebug = false)
    (hu : u = { s with nmiPending := u.nmiPending, nmiAtReset := u.nmiAtReset, mebPending := u.mebPending,
                       decPending := u.decPending }) :
    enters x srr0 info s (u.take x srr0 info) ∧ (u.take x srr0 info).intrusions = s.intrusions ∧
      (u.take x srr0 info).nmiPending = u.nmiPending ∧ (u.take x srr0 info).mebPending = u.mebPending ∧
      (u.take x srr0 info).decPending = u.decPending := by
  have hdbg : u.inDebug = false := by rw [hu]; exact h
  have hintr : u.intrusions = s.intrusions := by rw [hu]
  refine ⟨?_, ((take_counters x srr0 info hdbg).2.2).trans hintr, take_requests x srr0 info hdbg⟩
  have henters := take_enters x srr0 info hdbg
  generalize u.take x srr0 info = t at henters
  generalize u.nmiPending = a, u.nmiAtReset = b, u.mebPending = c, u.decPending = d at hu
  subst hu
  exact henters

/-- Settles O51: the requests in the order in which the step tests them. -/
theorem requestsInPriorityOrder : Obligations.RequestsInPriorityOrder := by
  intro s hevents hintr hcut hstop hreset hdbg hinbox
  rw [step_runStep hevents hcut hstop hreset hdbg hinbox]
  refine ⟨fun hnmi hat => ?nmi, fun hnmi hmeb hri => ?meb, fun hnmi hmeb hirq hee => ?irq, fun hnmi hmeb hirq hdec hee => ?dec⟩
  case nmi =>
    obtain ⟨henters, hi, hn, -, -⟩ := take_enters_requests .nonMaskableBreakpoint s.pc 0 (s := s)
      (u := { s with nmiPending := false, nmiAtReset := false }) hdbg rfl
    refine ⟨_, ?_, henters, hn⟩
    rw [State.runStep, if_pos hnmi, State.takeNmi, if_neg (by simp [hat])]
    exact settled_next (hi.trans hintr)
  case meb =>
    obtain ⟨henters, hi, -, hm, -⟩ := take_enters_requests .maskableBreakpoint s.pc 0 (s := s)
      (u := { s with mebPending := false }) hdbg rfl
    refine ⟨_, ?_, henters, hm⟩
    rw [State.runStep, if_neg (by simp [hnmi]), if_pos (by simp [hmeb, hri])]
    exact settled_next (hi.trans hintr)
  case irq =>
    obtain ⟨henters, hi, -, -, hd⟩ := take_enters_requests .external s.pc 0 (s := s) (u := s) hdbg rfl
    refine ⟨_, ?_, henters, hd⟩
    rw [State.runStep, if_neg (by simp [hnmi]), if_neg (by simpa using hmeb), if_pos (by simp [hirq, hee])]
    exact settled_next (hi.trans hintr)
  case dec =>
    obtain ⟨henters, hi, -, -, hd⟩ := take_enters_requests .decrementer s.pc 0 (s := s)
      (u := { s with decPending := false }) hdbg rfl
    refine ⟨_, ?_, henters, hd⟩
    rw [State.runStep, if_neg (by simp [hnmi]), if_neg (by simpa using hmeb), if_neg (by simp [hirq]),
      if_pos (by simp [hdec, hee])]
    exact settled_next (hi.trans hintr)

/-! The instruction at CIA (R631, R646, R690, R691). -/

theorem quiet_noInstrBreakpoint {s : State} (h : s.quiet) : s.noInstrBreakpoint := by
  obtain ⟨-, hictrl, hcountA, hcountB, htecr, -, -⟩ := h
  rw [State.noInstrBreakpoint, hictrl, hcountA, hcountB, htecr]
  decide

/-- Where no I-bus breakpoint is programmed, the word runs in the state as it is. -/
theorem runWord_of_noInstrBreakpoint {s : State} (w : Word) (hd : s.inDebug = false) (h : s.noInstrBreakpoint) :
    s.runWord w =
      match decode w with
      | .error _ => .next ((s.take .softwareEmulation s.pc 0).uncount s)
      | .ok i =>
        match exec i s with
        | .next t => .next (t.afterInstr s i s.iWatch)
        | .fault r => .fault r
        | .refused r => .refused r := by
  unfold State.runWord
  rw [iBreakpoint_none hd h]
  rfl

theorem settle_of_no_intrusions (s : State) (h : s.intrusions = []) : s.settle = s := settle_nil h

/-- Settles O4: no breakpoint before the instruction, no data breakpoint and no trace after it. -/
theorem stepRunsDecodedInstruction : Obligations.StepRunsDecodedInstruction := by
  refine ⟨fun s w i hq hf hdec => ?_, settle_of_no_intrusions⟩
  have hno : s.fresh.noInstrBreakpoint := quiet_noInstrBreakpoint hq
  obtain ⟨hs, -, hA, hB, -, hse, hbe⟩ := hq
  have hdbg : s.fresh.inDebug = false := hs.2.2.2.2.2.1
  refine ⟨fun t hx h0 h1 => ?_, fun r hx => ?_⟩
  · rw [step_runWord hs hf, runWord_completes (iBreakpoint_none hdbg hno) hdec hx,
      afterInstr_plain (s := s.fresh) i _ h0 h1 (traced_off i hse hbe)]
    change settled (.next (if t.excTaken = some .before then { t with countA := s.countA, countB := s.countB } else t)) = _
    rw [hA, hB]
    rfl
  · rw [step_runWord hs hf, runWord_of_noInstrBreakpoint w hdbg hno, hdec]
    dsimp only
    rw [hx]
    rfl

/-- Settles O5: the word is rejected before the counters count. -/
theorem rejectedWordTakesEmulation : Obligations.RejectedWordTakesEmulation := by
  intro s w e hq hf hdec
  have hno : s.fresh.noInstrBreakpoint := quiet_noInstrBreakpoint hq
  have hs := hq.1
  obtain ⟨-, hintr, -, -, -, hdbg, -⟩ := hs
  have hdbg : s.fresh.inDebug = false := hdbg
  obtain ⟨hregs, hat, hmem⟩ := take_enters .softwareEmulation s.pc 0 hdbg
  refine ⟨(s.fresh.take .softwareEmulation s.pc 0).uncount s.fresh, ?_, hregs, hat, hmem⟩
  rw [step_runWord hq.1 hf, runWord_of_noInstrBreakpoint w hdbg hno, hdec]
  exact settled_next ((take_counters .softwareEmulation s.pc 0 hdbg).2.2.trans hintr)

theorem isBranch_of_branches {i : Instr} (h : branches i) : isBranch i = true := by
  obtain ⟨li, aa, lk, rfl⟩ | ⟨bo, bi, bd, aa, lk, rfl⟩ | ⟨bo, bi, lk, rfl⟩ | ⟨bo, bi, lk, rfl⟩ := h <;> rfl

theorem traced_on {msr : Word} {i : Instr} (h : (msrSE msr = true ∧ i ≠ .rfi) ∨ (msrBE msr = true ∧ branches i)) :
    traced msr i = true := by
  unfold traced
  rcases h with ⟨hse, hi⟩ | ⟨hbe, hi⟩
  · simp [hse, hi]
  · simp [hbe, isBranch_of_branches hi]

/-- The trace exception after an instruction without a data breakpoint. -/
theorem afterInstr_traced {s t : State} {i : Instr} (iw : Nat → Bool) (he : t.excTaken = none) (h0 : bit t.lctrl2 0 = false)
    (h1 : bit t.lctrl2 10 = false) (htr : traced s.msr i = true) : t.afterInstr s i iw = t.take .trace t.pc 0 := by
  unfold State.afterInstr
  rw [he, lBreakpoint_disabled iw (s.pc + 4) h0 h1]
  exact (if_neg Bool.false_ne_true).trans (if_pos htr)

/-- Settles O6: neither breakpoint, and the condition of R691 on the MSR before the instruction. -/
theorem singleStepTraces : Obligations.SingleStepTraces := by
  refine ⟨fun s t u i iw hdbg hse hi he h0 h1 hafter => ?_, fun s t w i hs hno hf hdec hx he hdbg hintr h0 h1 htr => ?_⟩
  · rw [← hafter, afterInstr_traced iw he h0 h1 (traced_on (.inl ⟨hse, hi⟩))]
    exact take_enters .trace u.pc 0 hdbg
  · have hdbg' : s.fresh.inDebug = false := hs.2.2.2.2.2.1
    refine ⟨t.take .trace t.pc 0, ?_, take_enters .trace t.pc 0 hdbg⟩
    rw [step_runWord hs hf, runWord_completes (iBreakpoint_none hdbg' hno) hdec hx,
      afterInstr_traced (s := s.fresh) _ he h0 h1 (traced_on htr)]
    exact settled_next ((take_counters .trace t.pc 0 hdbg).2.2.trans hintr)

end Sys2Proof.Proofs

/-! Conditional branches, traps, and floating-point instructions that are not available (48_branch_cr_system_trap.md R540 to R545, R566
to R568; 60_exceptions.md R680, R686). -/

namespace Sys2Proof.Proofs

open Sys2Proof Sys2Proof.Machine Sys2Proof.Laws

/-! Floating-point instructions with MSR[FP] = 0. -/

/-- Every floating-point instruction asks first whether the facility is available. -/
theorem exec_isFloat {i : Instr} (s : State) (h : isFloat i = true) : ∃ k, exec i s = fpAvailable s k := by
  cases i
  case fadd | fadds | fsub | fsubs | fmul | fmuls | fdiv | fdivs | fmadd | fmadds | fmsub | fmsubs | fnmadd | fnmadds |
      fnmsub | fnmsubs => exact ⟨_, exec_fpForm rfl⟩
  case fmr | fneg | fabs | fnabs => exact ⟨_, exec_fpMoveForm rfl⟩
  case lfs | lfsu | lfsx | lfsux => exact ⟨_, exec_fpLoadSingle rfl⟩
  case lfd | lfdu | lfdx | lfdux => exact ⟨_, exec_fpLoadDouble rfl⟩
  case stfs | stfsu | stfsx | stfsux => exact ⟨_, exec_fpStoreSingle rfl⟩
  case stfd | stfdu | stfdx | stfdux => exact ⟨_, exec_fpStoreDouble rfl⟩
  case stfiwx frS rA rB => exact ⟨_, (rfl : _ = execStfiwx frS rA rB s)⟩
  case frsp frD frB rc => exact ⟨_, (rfl : _ = execFrsp frD frB rc s)⟩
  case fctiw frD frB rc => exact ⟨_, (rfl : _ = convertToIntWord (fpRN s.fpscr) frD frB rc s)⟩
  case fctiwz frD frB rc => exact ⟨_, (rfl : _ = convertToIntWord 1#2 frD frB rc s)⟩
  case fcmpu crfD frA frB => exact ⟨_, (rfl : _ = execFcmpu crfD frA frB s)⟩
  case fcmpo crfD frA frB => exact ⟨_, (rfl : _ = execFcmpo crfD frA frB s)⟩
  case mffs frD rc => exact ⟨_, (rfl : _ = execMffs frD rc s)⟩
  case mcrfs crfD crfS => exact ⟨_, (rfl : _ = execMcrfs crfD crfS s)⟩
  case mtfsfi crfD imm rc => exact ⟨_, (rfl : _ = execMtfsfi crfD imm rc s)⟩
  case mtfsf fm frB rc => exact ⟨_, (rfl : _ = execMtfsf fm frB rc s)⟩
  case mtfsb0 crbD rc => exact ⟨_, (rfl : _ = execMtfsb0 crbD rc s)⟩
  case mtfsb1 crbD rc => exact ⟨_, (rfl : _ = execMtfsb1 crbD rc s)⟩
  all_goals exact absurd h Bool.false_ne_true

/-- Settles O30: the test comes before any other effect. -/
theorem floatUnavailable : Obligations.FloatUnavailable := by
  intro i s hi hfp hdbg
  obtain ⟨k, hk⟩ := exec_isFloat s hi
  exact raises_of_exec (hk.trans (fpAvailable_off k hfp)) (by decide) hdbg

/-! Traps. -/

theorem exec_trapForm {i : Instr} {s : State} {trapOn : BitVec 5} {a b : Word} (h : trapForm s i = some (trapOn, a, b)) :
    exec i s = if trapCond trapOn a b then trapException s else nextInstr s := by
  unfold trapForm at h
  split at h <;> cases h <;> rfl

theorem trapCond_iff (trapOn : BitVec 5) (a b : Word) : trapCond trapOn a b = true ↔ traps trapOn a b := by
  unfold trapCond traps
  simp only [Bool.or_eq_true, Bool.and_eq_true, BitVec.slt_iff_toInt_lt, BitVec.ult_iff_toNat_lt, beq_iff_eq, or_assoc]

/-- Settles O46: the comparison decides between the next instruction and the program exception. -/
theorem trapResult : Obligations.TrapResult := by
  intro i s trapOn a b h
  refine ⟨fun ht => ?_, fun ht hdbg => ?_⟩
  · exact (exec_trapForm h).trans (if_neg fun hc => ht ((trapCond_iff ..).mp hc))
  · have hclass : (s.take .program s.pc 0x0002).excTaken = some .before :=
      congrArg State.excTaken (takeVia_eq s .program Exc.program.causeBit s.pc 0x0002 hdbg)
    have hexec := (exec_trapForm h).trans (if_pos ((trapCond_iff ..).mpr ht))
    exact ⟨_, hexec, take_enters .program s.pc 0x0002 hdbg, hclass⟩

/-! Conditional branches. -/

/-- What the end of a branch does. -/
theorem branchTo_eq (taken : Bool) (target : Word) (lk : Bool) (s : State) :
    branchTo taken target lk s =
      .next { s with pc := if taken then target else s.pc + 4, lr := if lk then s.pc + 4 else s.lr } := by
  cases lk <;> rfl

theorem unstatedBranch_outside {s : State} (relative lk taken : Bool) (h : s.inDebug = false) :
    s.unstatedBranch relative lk taken = false := by
  rw [State.unstatedBranch, h, Bool.false_and]

/-- The tests of the condition and of the counter. -/
def takenBy (x : BranchForm) (s : State) : Bool := ctrOk x.bo (x.ctr s) && condOk x.bo x.bi s.cr

theorem takenBy_iff (x : BranchForm) (s : State) : takenBy x s = true ↔ x.taken s := by
  have hctr : ((x.ctr s != 0) != x.bo.getLsbD 1) = true ↔ (x.ctr s = 0 ↔ x.bo.getLsbD 1 = true) := by
    by_cases h : x.ctr s = 0
    · simp [h]
    · rw [(bne_iff_ne).mpr h, Bool.true_bne, Bool.not_eq_true', iff_false_left h, Bool.not_eq_true]
  rw [takenBy, BranchForm.taken, ctrOk, condOk, Bool.and_eq_true, Bool.or_eq_true, Bool.or_eq_true, hctr, beq_iff_eq, and_comm]

theorem validBOctr_decrements {bo : BitVec 5} (h : validBOctr bo = true) : bo.getLsbD 2 = true ∧ validBO bo = true := by
  revert bo
  decide

theorem ctrAfter_eq (bo : BitVec 5) (c : Word) : ctrAfter bo c = if !bo.getLsbD 2 then c - 1 else c := by
  unfold ctrAfter
  cases bo.getLsbD 2 <;> rfl

/-- A conditional branch in a valid form, outside debug mode. -/
theorem exec_branchForm {i : Instr} {s : State} {x : BranchForm} (h : branchForm s i = some x) (hdbg : s.inDebug = false) :
    exec i s = .next { s with
      pc := if takenBy x s then x.target else s.pc + 4, lr := if x.lk then s.pc + 4 else s.lr, ctr := x.ctr s } := by
  unfold branchForm at h
  split at h
  case h_1 bo bi bd aa lk =>
    split at h
    case isFalse => cases h
    case isTrue hbo =>
      cases h
      change execBc bo bi bd aa lk s = _
      simp only [execBc, hbo, unstatedBranch_outside _ _ _ hdbg, Bool.not_true, Bool.false_eq_true, if_false, branchTo_eq,
        takenBy, BranchForm.ctr, ctrAfter_eq]
      rfl
  case h_2 bo bi lk =>
    split at h
    case isFalse => cases h
    case isTrue hbo =>
      cases h
      change execBclr bo bi lk s = _
      simp only [execBclr, hbo, unstatedBranch_outside _ _ _ hdbg, Bool.not_true, Bool.false_eq_true, if_false, branchTo_eq,
        takenBy, BranchForm.ctr, ctrAfter_eq]
      rfl
  case h_3 bo bi lk =>
    split at h
    case isFalse => cases h
    case isTrue hbo =>
      cases h
      obtain ⟨hctr, hvalid⟩ := validBOctr_decrements hbo
      change execBcctr bo bi lk s = _
      simp only [execBcctr, hctr, hvalid, unstatedBranch_outside _ _ _ hdbg, Bool.not_true, Bool.false_eq_true, if_false,
        branchTo_eq, takenBy, BranchForm.ctr, ctrOk, Bool.true_or, Bool.true_and]
  case h_4 => cases h

/-- Settles O44: the end of a branch, with the tests of its form. -/
theorem conditionalBranchResult : Obligations.ConditionalBranchResult := by
  intro i s x h hdbg
  refine ⟨_, exec_branchForm h hdbg, fun ht => ?_, fun ht => ?_, rfl, rfl, fun a => rfl, rfl⟩
  · exact if_pos ((takenBy_iff x s).mpr ht)
  · exact if_neg fun hc => ht ((takenBy_iff x s).mp hc)

end Sys2Proof.Proofs

/-! Integer loads and stores of one operand, and the reservation: what is delivered and what is stored (45_load_store_int.md R431 to R467;
20_memory.md R160 to R163). -/

namespace Sys2Proof.Proofs

open Sys2Proof Sys2Proof.Machine Sys2Proof.Laws

/-! The value of an operand (20_memory.md R134). -/

/-- The `n` bytes at an address as a number. -/
def operandValue (s : State) (a : Word) (n : Nat) : Dword := BitVec.ofNat 64 (natOfBytes (s.bytesAt a n))

section
variable (s : State) (a : Word)

theorem bytesAt_two : s.bytesAt a 2 = [s.byteAt a, s.byteAt (a + 1)] := rfl

theorem bytesAt_four : s.bytesAt a 4 = [s.byteAt a, s.byteAt (a + 1), s.byteAt (a + 2), s.byteAt (a + 3)] := by
  have h2 : a + 1 + 1 = a + 2 := BitVec.add_assoc a 1 1
  have h3 : a + 2 + 1 = a + 3 := BitVec.add_assoc a 2 1
  simp only [State.bytesAt, h2, h3]

theorem operandValue_one : operandValue s a 1 = (s.byteAt a).setWidth 64 := natOfBytes_one _

theorem operandValue_two : operandValue s a 2 = (s.halfAt a).setWidth 64 := by
  rw [operandValue, bytesAt_two, natOfBytes_two]
  rfl

theorem operandValue_four : operandValue s a 4 = (s.wordAt a).setWidth 64 := by
  rw [operandValue, bytesAt_four, natOfBytes_four]
  rfl

theorem operandValue_eight : operandValue s a 8 = (s.wordAt a ++ s.wordAt (a + 4) : BitVec 64) := by
  have hsplit : s.bytesAt a 8 = s.bytesAt a 4 ++ s.bytesAt (a + 4) 4 := bytesAt_append s 4 4 a
  rw [operandValue, hsplit, bytesAt_four, bytesAt_four]
  exact natOfBytes_eight ..

end

theorem setWidth_setWidth_word {n : Nat} (v : BitVec n) : (v.setWidth 64).setWidth 32 = v.setWidth 32 :=
  BitVec.setWidth_setWidth_of_le v (by decide)

theorem reverseHalf_append (x y : Byte) : reverseHalf (x ++ y : BitVec 16) = (y ++ x : BitVec 16) := by
  unfold reverseHalf
  rw [BitVec.extractLsb'_append_eq_right, BitVec.extractLsb'_append_eq_left]

theorem reverseWord_append (a b c d : Byte) :
    reverseWord (a ++ b ++ c ++ d : BitVec 32) = (d ++ c ++ b ++ a : BitVec 32) := by
  have h0 : (a ++ b ++ c ++ d : BitVec 32).extractLsb' 0 8 = d := BitVec.extractLsb'_append_eq_right
  have h1 : (a ++ b ++ c ++ d : BitVec 32).extractLsb' 8 8 = c := by
    rw [BitVec.extractLsb'_append_eq_of_le (by decide)]
    exact BitVec.extractLsb'_append_eq_right
  have h2 : (a ++ b ++ c ++ d : BitVec 32).extractLsb' 16 8 = b := by
    rw [BitVec.extractLsb'_append_eq_of_le (by decide), BitVec.extractLsb'_append_eq_of_le (by decide)]
    exact BitVec.extractLsb'_append_eq_right
  have h3 : (a ++ b ++ c ++ d : BitVec 32).extractLsb' 24 8 = a := by
    rw [BitVec.extractLsb'_append_eq_of_le (by decide), BitVec.extractLsb'_append_eq_of_le (by decide)]
    exact BitVec.extractLsb'_append_eq_left
  rw [reverseWord, h0, h1, h2, h3]

/-- An integer load of one operand extends the operand as its form says. -/
theorem exec_loadForm_value {i : Instr} {s : State} {x : LoadForm} (h : loadForm s i = some x) :
    x.size ≠ 8 ∧ ∃ ext, exec i s = loadInt i x.size ext x.rD x.update x.ea s ∧
      ∀ a, ext (operandValue s a x.size) = x.value a := by
  have hbyte (a : Word) : zeroExtend (operandValue s a 1) = s.zeroByte a := by
    rw [operandValue_one]
    exact setWidth_setWidth_word _
  have hhalf (a : Word) : zeroExtend (operandValue s a 2) = s.zeroHalf a := by
    rw [operandValue_two]
    exact setWidth_setWidth_word _
  have hlow (a : Word) : (operandValue s a 2).setWidth 16 = s.halfAt a := by
    rw [operandValue_two, BitVec.setWidth_setWidth_of_le _ (by decide), BitVec.setWidth_eq]
  have hword (a : Word) : zeroExtend (operandValue s a 4) = s.wordAt a := by
    rw [operandValue_four]
    exact (setWidth_setWidth_word _).trans (BitVec.setWidth_eq _)
  unfold loadForm at h
  split at h <;> cases h
  case h_1 | h_2 | h_3 | h_4 => exact ⟨(by decide : 1 ≠ 8), _, rfl, hbyte⟩
  case h_5 | h_6 | h_7 | h_8 => exact ⟨(by decide : 2 ≠ 8), _, rfl, hhalf⟩
  case h_9 | h_10 | h_11 | h_12 => exact ⟨(by decide : 2 ≠ 8), _, rfl, fun a => congrArg (BitVec.signExtend 32) (hlow a)⟩
  case h_13 | h_14 | h_15 | h_16 => exact ⟨(by decide : 4 ≠ 8), _, rfl, hword⟩
  case h_17 =>
    refine ⟨(by decide : 2 ≠ 8), _, rfl, fun a => ?_⟩
    rw [hlow a, State.halfAt, reverseHalf_append]
    rfl
  case h_18 => exact ⟨(by decide : 4 ≠ 8), _, rfl, fun a => (congrArg reverseWord (hword a)).trans (reverseWord_append ..)⟩

/-! The update of the base register (R432). -/

section
variable (s : State) (u : Option Reg) (ea : Word)

theorem updateBase_eq : s.updateBase u ea = { s with gpr := (s.updateBase u ea).gpr } := by
  cases u <;> rfl

theorem updateBase_r_base {rA : Reg} (h : u = some rA) : (s.updateBase u ea).r rA = ea := by
  subst h
  exact r_setR_same s rA ea

theorem updateBase_r_other {n : Reg} (h : n ∉ u.toList) : (s.updateBase u ea).r n = s.r n := by
  cases u with
  | none => rfl
  | some rA => exact r_setR_ne s ea (by simpa using h)

end

/-! Loads. -/

/-- The state in which a load into rD ends. -/
def loaded (s : State) (rD : Reg) (v : Word) (update : Option Reg) (ea : Word) (lbus : List BusCycle) : State :=
  ((({ s with lbus := lbus } : State).updateBase update ea).setR rD v).advance

theorem loadInt_done {i : Instr} {n : Nat} {ext : Dword → Word} {rD : Reg} {update : Option Reg} {ea : Word} {s : State}
    {v : Dword} {l : List BusCycle} (ha : s.leMisaligned ea n = false) (h : s.load ea n = .done v { s with lbus := l }) :
    loadInt i n ext rD update ea s = .next (loaded s rD (ext v) update ea l) := by
  unfold loadInt
  rw [ha, h, if_neg Bool.false_ne_true]
  cases update <;> rfl

/-- What a load changes. -/
theorem loaded_result (s : State) (rD : Reg) (v : Word) (update : Option Reg) (ea : Word) (l : List BusCycle) :
    let t := loaded s rD v update ea l
    t.r rD = v ∧ (∀ rA, update = some rA → rA ≠ rD → t.r rA = ea) ∧ sameGprsBut s t (rD :: update.toList) ∧
      sameMemory s t ∧ onlyLoad s t ∧ t.pc = s.pc + 4 := by
  intro t
  let u : State := { s with lbus := l }
  have hu : u.updateBase update ea = { u with gpr := (u.updateBase update ea).gpr } := updateBase_eq u update ea
  have ht : t = { s with gpr := t.gpr, pc := s.pc + 4, lbus := l } := by
    change loaded s rD v update ea l = _
    unfold loaded
    rw [hu]
    rfl
  have hr (n : Reg) : t.r n = if n = rD then v else (u.updateBase update ea).r n := r_setR (u.updateBase update ea) rD n v
  refine ⟨?_, fun rA hA hne => ?_, fun n hn => ?_, sameMemory_of_mem (by rw [ht]), ?_, by rw [ht]⟩
  · rw [hr, if_pos rfl]
  · rw [hr, if_neg hne]
    exact updateBase_r_base u update ea hA
  · have hne : n ≠ rD := fun heq => hn (heq ▸ List.mem_cons_self)
    rw [hr, if_neg hne]
    exact updateBase_r_other u update ea fun hmem => hn (List.mem_cons_of_mem _ hmem)
  · unfold onlyLoad
    rw [ht]

/-- Settles O22: the operand at the address on the bus, extended by the form. -/
theorem loadResult : Obligations.LoadResult := by
  intro i s x h hacc
  obtain ⟨haligned, hintr, hcycles⟩ := hacc
  obtain ⟨h8, ext, hexec, hvalue⟩ := exec_loadForm_value h
  obtain ⟨l, hload⟩ := load_done s x.ea x.size true hintr hcycles
  rw [if_neg h8] at hload
  refine ⟨_, hexec.trans (loadInt_done haligned hload), ?_⟩
  have hresult := loaded_result s x.rD (x.value (s.busAddress x.ea x.size)) x.update x.ea l
  rw [← hvalue] at hresult
  rw [← hvalue]
  exact hresult

/-! Stores. -/

/-- The bytes `bs` stand in memory from `a` on, and every other byte is as before. -/
def storesBytes (bs : List Byte) (a : Word) (s t : State) : Prop :=
  ∀ c : Word, t.byteAt c = (bs[(c - a).toNat]?).getD (s.byteAt c)

theorem storesBytes.congr {bs : List Byte} {a : Word} {s t u : State} (h : storesBytes bs a s t) (hmem : u.mem = t.mem) :
    storesBytes bs a s u := fun c => (byteAt_congr hmem c).trans (h c)

theorem storesBytes.at {bs : List Byte} {a : Word} {s t : State} (h : storesBytes bs a s t) (hl : bs.length < 2 ^ 32) {k : Nat}
    (hk : k < bs.length) : some (t.byteAt (a + BitVec.ofNat 32 k)) = bs[k]? := by
  have hoff : (a + BitVec.ofNat 32 k - a).toNat = k := by
    rw [BitVec.add_comm, BitVec.add_sub_cancel, BitVec.toNat_ofNat, Nat.mod_eq_of_lt (by omega)]
  rw [h, hoff, List.getElem?_eq_getElem hk]
  rfl

theorem storesBytes.others {bs : List Byte} {a : Word} {s t : State} (h : storesBytes bs a s t) :
    sameMemoryBut s t a bs.length := by
  intro b hb
  rw [h, List.getElem?_eq_none hb]
  rfl

/-- The word that four stored bytes make. -/
theorem storesBytes.wordAt {v a : Word} {s t : State} (h : storesBytes (wordOperand v) a s t) : t.wordAt a = v := by
  have hbyte (k : Nat) (hk : k < 4) : some (t.byteAt (a + BitVec.ofNat 32 k)) = (wordOperand v)[k]? :=
    h.at (by decide : 4 < 2 ^ 32) hk
  have h0 : t.byteAt a = byteOf v 0 := by simpa [wordOperand] using hbyte 0 (by decide)
  have h1 : t.byteAt (a + 1) = byteOf v 1 := by simpa [wordOperand] using hbyte 1 (by decide)
  have h2 : t.byteAt (a + 2) = byteOf v 2 := by simpa [wordOperand] using hbyte 2 (by decide)
  have h3 : t.byteAt (a + 3) = byteOf v 3 := by simpa [wordOperand] using hbyte 3 (by decide)
  rw [State.wordAt, h0, h1, h2, h3]
  unfold byteOf
  rw [BitVec.extractLsb'_append_extractLsb'_eq_extractLsb' (by decide),
    BitVec.extractLsb'_append_extractLsb'_eq_extractLsb' (by decide),
    BitVec.extractLsb'_append_extractLsb'_eq_extractLsb' (by decide)]
  exact BitVec.extractLsb'_eq_self

/-- The state in which a store ends: `t` is the state after its last cycle. -/
def afterStore (t : State) (update : Option Reg) (ea : Word) : State := (t.updateBase update ea).advance

theorem storeInt_done {i : Instr} {n : Nat} {v : Word} {update : Option Reg} {ea : Word} {s t : State}
    (ha : s.leMisaligned ea n = false) (h : s.store ea n (v.setWidth 64) = .done () t) :
    storeInt i n v update ea s = .next (afterStore t update ea) := by
  unfold storeInt
  rw [ha, h, if_neg Bool.false_ne_true]
  cases update <;> rfl

/-- What a store changes, apart from memory. -/
theorem afterStore_result {s t : State} (update : Option Reg) (ea : Word)
    (ht : t = { s with mem := t.mem, stale := t.stale, lbus := t.lbus }) :
    let u := afterStore t update ea
    u.mem = t.mem ∧ (∀ rA, update = some rA → u.r rA = ea) ∧ sameGprsBut s u update.toList ∧
      u = { s with gpr := u.gpr, mem := u.mem, stale := u.stale, pc := s.pc + 4, lbus := u.lbus } := by
  intro u
  have hbase : t.updateBase update ea = { t with gpr := (t.updateBase update ea).gpr } := updateBase_eq t update ea
  have hu : u = { t with gpr := u.gpr, pc := t.pc + 4 } := by
    change afterStore t update ea = _
    unfold afterStore
    rw [hbase]
    rfl
  have hgpr : t.gpr = s.gpr := by rw [ht]
  have hframe : u = { s with gpr := u.gpr, mem := u.mem, stale := u.stale, pc := s.pc + 4, lbus := u.lbus } := by
    clear_value u
    generalize u.gpr = g at hu
    subst hu
    rw [ht]
  refine ⟨by rw [hu], fun rA hA => updateBase_r_base t update ea hA, fun n hn => ?_, hframe⟩
  exact (updateBase_r_other t update ea hn).trans (r_congr hgpr n)

theorem onlyStore_of_frame {s u : State}
    (h : u = { s with gpr := u.gpr, mem := u.mem, stale := u.stale, pc := s.pc + 4, lbus := u.lbus }) :
    onlyStore s u ∧ u.pc = s.pc + 4 := by
  have hpc : u.pc = s.pc + 4 := by rw [h]
  refine ⟨?_, hpc⟩
  rw [onlyStore, hpc]
  exact h

/-- Settles O23: the bytes of the form, in the order of their addresses on the bus. -/
theorem storeResult : Obligations.StoreResult := by
  intro i s x h hwf hacc
  obtain ⟨haligned, hintr, hcycles⟩ := hacc
  obtain ⟨hlen, v, hexec, hbytes⟩ := exec_storeForm_bytes h
  obtain ⟨t, hstore, -, hmem, hframe⟩ := store_done s x.ea x.bytes.length (v.setWidth 64) true (by omega) hintr hwf hcycles
  rw [hbytes, if_neg (by omega)] at hmem
  obtain ⟨hum, hbase, hgprs, hu⟩ := afterStore_result x.update x.ea hframe
  have hst : storesBytes x.bytes (s.busAddress x.ea x.bytes.length) s (afterStore t x.update x.ea) :=
    storesBytes.congr hmem hum
  obtain ⟨honly, hpc⟩ := onlyStore_of_frame hu
  exact ⟨_, hexec.trans (storeInt_done haligned hstore), fun k hk => hst.at (by omega) hk, hst.others, hbase, hgprs, honly, hpc⟩

/-! The reservation (20_memory.md R160 to R163). -/

theorem exec_lwarx {s : State} (rD rA rB : Reg) (ha : (s.eaX rA rB).toNat % 4 = 0) {v : Dword} {t : State}
    (h : s.load (s.eaX rA rB) 4 = .done v t) :
    exec (.lwarx rD rA rB) s =
      .next (gprWritten { t with reservation := some (granuleOf (s.eaX rA rB)) } rD (v.setWidth 32)) := by
  change execLwarx rD rA rB s = _
  unfold execLwarx
  simp only [ha, h, ne_eq, not_true_eq_false, if_false]
  rfl

theorem exec_stwcx_free {s : State} (rS rA rB : Reg) (ha : (s.eaX rA rB).toNat % 4 = 0) (hr : s.reservation = none) :
    exec (.stwcx rS rA rB) s = .next (crWritten s (setCrField s.cr 0 (withSO 0#3 s.xer))) := by
  change execStwcx rS rA rB s = _
  unfold execStwcx
  simp only [ha, hr, ne_eq, not_true_eq_false, if_false, Option.isNone_none, if_true]
  rfl

theorem exec_stwcx_reserved {s t : State} (rS rA rB : Reg) (ha : (s.eaX rA rB).toNat % 4 = 0) (hr : s.reservation ≠ none)
    (h : s.store (s.eaX rA rB) 4 ((s.r rS).setWidth 64) = .done () t) :
    exec (.stwcx rS rA rB) s =
      .next (crWritten { t with reservation := none } (setCrField t.cr 0 (withSO 1#3 t.xer))) := by
  have hsome : s.reservation.isNone = false := Option.isNone_eq_false_iff.mpr (Option.isSome_iff_ne_none.mpr hr)
  change execStwcx rS rA rB s = _
  unfold execStwcx
  simp only [ha, hsome, h, ne_eq, not_true_eq_false, if_false, Bool.false_eq_true]
  rfl

theorem withSO_crBits (eq so : Bool) (xer : Word) (h : xerSO xer = so) :
    withSO (0#2 ++ BitVec.ofBool eq : BitVec 3) xer = crBits false false eq so := by
  unfold withSO crBits
  rw [h]
  cases eq <;> cases so <;> rfl

/-- Settles O59: one load with a reservation, and one store with or without it. -/
theorem reservationResult : Obligations.ReservationResult := by
  refine ⟨fun rD rA rB s ha hacc => ?_, fun rS rA rB s ha hr => ?_, fun rS rA rB s ha hr hwf hacc => ?_⟩
  · obtain ⟨-, hintr, hcycles⟩ := hacc
    obtain ⟨l, hload⟩ := load_done s (s.eaX rA rB) 4 true hintr hcycles
    have hvalue : (operandValue s (s.busAddress (s.eaX rA rB) 4) 4).setWidth 32 = s.wordAt (s.busAddress (s.eaX rA rB) 4) := by
      rw [operandValue_four, setWidth_setWidth_word _, BitVec.setWidth_eq]
    let u : State := { s with lbus := l, reservation := some (granuleOf (s.eaX rA rB)) }
    obtain ⟨hr, hgprs, hframe⟩ := gprWritten_result u rD
      ((operandValue s (s.busAddress (s.eaX rA rB) 4) 4).setWidth 32)
    refine ⟨_, exec_lwarx rD rA rB ha hload, hr.trans hvalue, rfl, hgprs, fun a => rfl, hframe⟩
  · refine ⟨_, exec_stwcx_free rS rA rB ha hr, ?_, fun g hg => crField_setCrField_ne _ _ _ _ hg, sameMemory_crWritten _ _, rfl⟩
    exact (crField_setCrField_same ..).trans (withSO_crBits false _ _ rfl)
  · obtain ⟨-, hintr, hcycles⟩ := hacc
    obtain ⟨t, hstore, -, hmem, hframe⟩ :=
      store_done s (s.eaX rA rB) 4 ((s.r rS).setWidth 64) true (by decide) hintr hwf hcycles
    rw [bytesOf_wordOperand, if_neg (by decide)] at hmem
    have hst : storesBytes (wordOperand (s.r rS)) (s.busAddress (s.eaX rA rB) 4) s
        (crWritten { t with reservation := none } (setCrField t.cr 0 (withSO 1#3 t.xer))) := hmem
    have hcr : t.cr = s.cr := by rw [hframe]
    have hxer : t.xer = s.xer := by rw [hframe]
    refine ⟨_, exec_stwcx_reserved rS rA rB ha hr hstore, hst.wordAt, hst.others, ?_, fun g hg => ?_, rfl, ?_⟩
    · exact (crField_setCrField_same ..).trans (withSO_crBits true _ _ (congrArg xerSO hxer))
    · exact (crField_setCrField_ne _ _ _ _ hg).trans (congrArg (crField · g) hcr)
    · rw [hcr, hxer]
      generalize t.mem = m, t.stale = d, t.lbus = l at hframe
      subst hframe
      rfl

end Sys2Proof.Proofs

/-! Multiple and string instructions: ascending bytes to and from the registers (46_load_store_multiple_string.md R481 to R486). -/

namespace Sys2Proof.Proofs

open Sys2Proof Sys2Proof.Machine Sys2Proof.Laws

/-! Registers in ascending order, 31 followed by 0. -/

theorem reg_add_succ (r : Reg) (k : Nat) : r + 1 + BitVec.ofNat 5 k = r + BitVec.ofNat 5 (k + 1) := by
  rw [BitVec.add_assoc, Nat.add_comm k 1, BitVec.ofNat_add]
  rfl

/-- At most 32 registers in a row are different ones. -/
theorem reg_ne_add (r : Reg) {k : Nat} (hk : k + 1 < 32) : r ≠ r + 1 + BitVec.ofNat 5 k := by
  rw [reg_add_succ]
  intro h
  have hz := congrArg BitVec.toNat (left_eq_add.mp h)
  rw [BitVec.toNat_ofNat, Nat.mod_eq_of_lt (by omega)] at hz
  exact absurd hz (by simp)

/-- `putRegs` loads four bytes into each of its registers and leaves the others. -/
theorem putRegs_result : ∀ (k : Nat) (r : Reg) (bs : List Byte) (s : State), k ≤ 32 →
    (∀ j, j < k → (putRegs k r bs s).r (r + BitVec.ofNat 5 j) = packWord ((bs.drop (4 * j)).take 4)) ∧
      (∀ n, (∀ j, j < k → n ≠ r + BitVec.ofNat 5 j) → (putRegs k r bs s).r n = s.r n) ∧
      putRegs k r bs s = { s with gpr := (putRegs k r bs s).gpr }
  | 0, r, bs, s, _ => ⟨nofun, fun _ _ => rfl, rfl⟩
  | k + 1, r, bs, s, hk => by
    obtain ⟨hregs, hothers, hframe⟩ := putRegs_result k (r + 1) (bs.drop 4) (s.setR r (packWord (bs.take 4))) (by omega)
    rw [putRegs]
    refine ⟨fun j hj => ?_, fun n hn => ?_, hframe⟩
    · cases j with
      | zero =>
        rw [BitVec.add_zero, hothers r fun j hj => reg_ne_add r (by omega)]
        exact r_setR_same ..
      | succ j =>
        rw [← reg_add_succ, hregs j (by omega), List.drop_drop]
        congr 3
        omega
    · rw [hothers n fun j hj => reg_add_succ r j ▸ hn (j + 1) (by omega)]
      have hne : n ≠ r := by simpa using hn 0 (by omega)
      exact r_setR_ne s _ hne

theorem regBytes_length (s : State) : ∀ (k : Nat) (r : Reg), (regBytes s k r).length = 4 * k
  | 0, _ => rfl
  | k + 1, r => by
    rw [regBytes, List.length_append, bytesOf_length, regBytes_length s k]
    omega

/-- Byte `j` of the registers is byte j mod 4 of the register j / 4 from the first. -/
theorem regBytes_getElem? (s : State) : ∀ (k : Nat) (r : Reg) (j : Nat), j < 4 * k →
    (regBytes s k r)[j]? = some (byteOf (s.r (r + BitVec.ofNat 5 (j / 4))) (j % 4))
  | 0, _, _, h => absurd h (by omega)
  | k + 1, r, j, h => by
    rw [regBytes, bytesOf_wordOperand]
    by_cases hj : j < 4
    · rw [List.getElem?_append_left hj, Nat.div_eq_of_lt hj, Nat.mod_eq_of_lt hj, BitVec.add_zero]
      interval_cases j <;> rfl
    · obtain ⟨i, rfl⟩ : ∃ i, j = i + 4 := ⟨j - 4, by omega⟩
      have hlen : (wordOperand (s.r r)).length = 4 := rfl
      rw [List.getElem?_append_right (by rw [hlen]; omega), hlen, Nat.add_sub_cancel, regBytes_getElem? s k (r + 1) i (by omega),
        reg_add_succ, Nat.add_div_right i (by decide), Nat.add_mod_right]

/-! The instructions by their forms. -/

theorem xerBytes_lt (xer : Word) : xerBytes xer < 128 := BitVec.isLt _

/-- A register in the range is one of those loaded. -/
theorem inRange_false {rD r : Reg} {k : Nat} (h : ∀ j, j < k → r ≠ rD + BitVec.ofNat 5 j) : inRange rD k r = false := by
  rw [inRange, decide_eq_false_iff_not]
  intro hlt
  refine h _ hlt ?_
  rw [BitVec.ofNat_toNat, BitVec.setWidth_eq, BitVec.add_comm, BitVec.sub_add_cancel]

theorem exec_transferLoad {i : Instr} {s : State} {x : TransferForm} (h : transferLoad s i = some x) (hle : msrLE s.msr = false) :
    exec i s = loadRegs i x.first x.ea x.count s ∧ x.count ≤ 128 := by
  unfold transferLoad at h
  split at h
  case h_1 rD d rA =>
    split at h
    case isFalse => cases h
    case isTrue ha =>
      cases h
      refine ⟨?_, by dsimp only; omega⟩
      change execLmw rD d rA s = _
      simp only [execLmw, hle, ha, bne_self_eq_false, Bool.or_self, Bool.false_eq_true, if_false]
  case h_2 rD rA nb =>
    cases h
    refine ⟨?_, ?_⟩
    · change execLswi rD rA nb s = _
      simp only [execLswi, hle, Bool.false_eq_true, if_false]
      rfl
    · have := nb.isLt
      dsimp only [stringCount]
      split <;> omega
  case h_3 rD rA rB =>
    split at h
    case isFalse => cases h
    case isTrue hc =>
      cases h
      obtain ⟨hpos, hB⟩ := hc
      refine ⟨?_, by have := xerBytes_lt s.xer; dsimp only; omega⟩
      change execLswx rD rA rB s = _
      have hrange : inRange rD (regCount (xerBytes s.xer)) rB = false := inRange_false hB
      simp only [execLswx, hle, hrange, Nat.ne_of_gt hpos, Bool.false_eq_true, if_false]
  case h_4 => cases h

theorem exec_transferStore {i : Instr} {s : State} {x : TransferForm} (h : transferStore s i = some x)
    (hle : msrLE s.msr = false) : exec i s = storeRegs i x.first x.ea x.count s ∧ x.count ≤ 128 := by
  unfold transferStore at h
  split at h
  case h_1 rS d rA =>
    split at h
    case isFalse => cases h
    case isTrue ha =>
      cases h
      refine ⟨?_, by dsimp only; omega⟩
      change execStmw rS d rA s = _
      simp only [execStmw, hle, ha, bne_self_eq_false, Bool.or_self, Bool.false_eq_true, if_false]
  case h_2 rS rA nb =>
    cases h
    refine ⟨?_, ?_⟩
    · change execStswi rS rA nb s = _
      simp only [execStswi, hle, Bool.false_eq_true, if_false]
      rfl
    · have := nb.isLt
      dsimp only [stringCount]
      split <;> omega
  case h_3 rS rA rB =>
    cases h
    refine ⟨?_, by have := xerBytes_lt s.xer; dsimp only; omega⟩
    change execStswx rS rA rB s = _
    simp only [execStswx, hle, Bool.false_eq_true, if_false]
  case h_4 => cases h

/-! The transfers. -/

theorem packWord_bytesAt (s : State) (x : TransferForm) (k : Nat) :
    packWord (((s.bytesAt x.ea x.count).drop (4 * k)).take 4) =
      (s.transferByte x k 0 ++ s.transferByte x k 1 ++ s.transferByte x k 2 ++ s.transferByte x k 3 : BitVec 32) := by
  have hbyte (j : Nat) (hj : j < 4) :
      (((s.bytesAt x.ea x.count).drop (4 * k)).take 4).getD j 0 = s.transferByte x k j := by
    rw [List.getD_eq_getElem?_getD, List.getElem?_take_of_lt hj, List.getElem?_drop, bytesAt_getElem?, State.transferByte]
    split <;> rfl
  rw [packWord, hbyte 0 (by decide), hbyte 1 (by decide), hbyte 2 (by decide), hbyte 3 (by decide)]

theorem loadRegs_done {i : Instr} {s : State} {x : TransferForm} (hx : s.transferable .load x) :
    ∃ l, loadRegs i x.first x.ea x.count s =
      .next (putRegs (regCount x.count) x.first (s.bytesAt x.ea x.count) { s with lbus := l }).advance := by
  obtain ⟨-, hintr, hcycles⟩ := hx
  obtain ⟨l, hread⟩ := readCycles_done true (splitCycles x.count x.ea x.count) s hintr hcycles
  rw [splitCycles_bytes s x.count x.ea x.count (Nat.le_refl _)] at hread
  exact ⟨l, by rw [loadRegs, hread]; rfl⟩

/-- The bytes that a transfer stores. -/
def transferBytes (s : State) (x : TransferForm) : List Byte := (regBytes s (regCount x.count) x.first).take x.count

theorem transferBytes_length (s : State) (x : TransferForm) : (transferBytes s x).length = x.count := by
  rw [transferBytes, List.length_take, regBytes_length, regCount]
  omega

theorem transferBytes_getElem? (s : State) (x : TransferForm) {j : Nat} (hj : j < x.count) :
    (transferBytes s x)[j]? = some (byteOf (s.r (x.first + BitVec.ofNat 5 (j / 4))) (j % 4)) := by
  rw [transferBytes, List.getElem?_take_of_lt hj, regBytes_getElem?]
  unfold regCount
  omega

theorem storeRegs_done {i : Instr} {s : State} {x : TransferForm} (hx : s.transferable .store x) (hwf : s.memoryCanonical)
    (hc : x.count ≤ 128) :
    ∃ t, storeRegs i x.first x.ea x.count s = .next t.advance ∧ storesBytes (transferBytes s x) x.ea s t ∧
      t = { s with mem := t.mem, stale := t.stale, lbus := t.lbus } := by
  obtain ⟨-, hintr, hcycles⟩ := hx
  have hlen := transferBytes_length s x
  obtain ⟨t, hwrite, -, hmem, hframe⟩ := writeCycles_split true x.count x.ea (transferBytes s x) s hintr hwf (by omega) (by omega)
    (by rw [hlen]; exact hcycles)
  rw [hlen] at hwrite
  refine ⟨t, ?_, hmem, hframe⟩
  rw [storeRegs, show (regBytes s (regCount x.count) x.first).take x.count = transferBytes s x from rfl, hwrite]
  rfl

theorem exec_lswx_empty {s : State} {rD rA rB : Reg} (hle : msrLE s.msr = false) (h0 : xerBytes s.xer = 0) (hA : rD ≠ rA)
    (hB : rD ≠ rB) : exec (.lswx rD rA rB) s = .next (gprWritten s.draw.2 rD (s.draw.1.setWidth 32)) := by
  change execLswx rD rA rB s = _
  simp only [execLswx, hle, h0, hA, hB, or_self, Bool.false_eq_true, if_false, if_true]
  rfl

/-- Settles O24: the registers and the bytes, one after the other. -/
theorem multipleAndStringResult : Obligations.MultipleAndStringResult := by
  refine ⟨fun i s x h hx => ?load, fun i s x h hwf hx => ?store, fun rD rA rB s hle h0 hA hB => ?empty⟩
  case load =>
    obtain ⟨hexec, hc⟩ := exec_transferLoad h hx.1
    obtain ⟨l, hload⟩ := loadRegs_done (i := i) hx
    obtain ⟨hregs, hothers, hframe⟩ := putRegs_result (regCount x.count) x.first (s.bytesAt x.ea x.count) { s with lbus := l }
      (by unfold regCount; omega)
    generalize putRegs (regCount x.count) x.first (s.bytesAt x.ea x.count) { s with lbus := l } = u at *
    refine ⟨_, hexec.trans hload, fun k hk => (hregs k hk).trans (packWord_bytesAt s x k), hothers, ?_, ?_, ?_⟩
    all_goals
      generalize u.gpr = g at hframe
      subst hframe
    · exact fun a => rfl
    · rfl
    · rfl
  case store =>
    obtain ⟨hexec, hc⟩ := exec_transferStore h hx.1
    obtain ⟨t, hstore, hst, hframe⟩ := storeRegs_done (i := i) hx hwf hc
    have hlen := transferBytes_length s x
    have hgpr : t.gpr = s.gpr := by rw [hframe]
    refine ⟨_, hexec.trans hstore, fun j hj => ?_, hlen ▸ hst.others, fun n _ => r_congr hgpr n, ?_, ?_⟩
    · have hj' := (hst.at (by omega) (by omega)).trans (transferBytes_getElem? s x hj)
      exact Option.some.inj hj'
    all_goals
      generalize t.mem = m, t.stale = d, t.lbus = l at hframe
      subst hframe
      rfl
  case empty =>
    obtain ⟨-, hgprs, hframe⟩ := gprWritten_result s.draw.2 rD (s.draw.1.setWidth 32)
    exact ⟨_, exec_lswx_empty hle h0 hA hB, hgprs, fun a => rfl, hframe⟩

end Sys2Proof.Proofs

/-! Single and double patterns as numbers, and the conversions between them (47_load_store_fp_move.md R511, R512). -/

namespace Sys2Proof.Proofs

open Sys2Proof Sys2Proof.Machine Sys2Proof.Laws

/-! Fields as numbers. -/

theorem toNat_append {m n : Nat} (a : BitVec m) (b : BitVec n) : (a ++ b).toNat = a.toNat * 2 ^ n + b.toNat := by
  rw [BitVec.toNat_append, Nat.shiftLeft_eq, Nat.mul_comm, ← Nat.two_pow_add_eq_or_of_lt b.isLt]

theorem toNat_extract {m : Nat} (v : BitVec m) (start len : Nat) :
    (v.extractLsb' start len).toNat = v.toNat / 2 ^ start % 2 ^ len := by
  rw [BitVec.extractLsb'_toNat, Nat.shiftRight_eq_div_pow]

theorem toNat_bits (w : Word) (first len : Nat) : (bits w first len).toNat = w.toNat / 2 ^ (32 - first - len) % 2 ^ len :=
  toNat_extract ..

theorem toNat_bit (w : Word) (b : Nat) : (bit w b).toNat = w.toNat / 2 ^ (31 - b) % 2 := by
  rw [bit, BitVec.getLsbD, Nat.toNat_testBit]

theorem fpExp_toNat (d : Dword) : fpExp d = d.toNat / 2 ^ 52 % 2 ^ 11 := toNat_extract ..

theorem fpFrac_toNat (d : Dword) : fpFrac d = d.toNat % 2 ^ 52 := (toNat_extract ..).trans (by rw [Nat.pow_zero, Nat.div_one])

theorem fpSign_toNat (d : Dword) : (fpSign d).toNat = d.toNat / 2 ^ 63 := by
  have hd := d.isLt
  rw [fpSign_eq, BitVec.getLsbD, Nat.toNat_testBit]
  omega

theorem singleExp_toNat (w : Word) : singleExp w = w.toNat / 2 ^ 23 % 2 ^ 8 := toNat_bits ..

theorem singleFrac_toNat (w : Word) : singleFrac w = w.toNat % 2 ^ 23 :=
  (toNat_bits ..).trans (by rw [show 32 - 9 - 23 = 0 from rfl, Nat.pow_zero, Nat.div_one])

/-- A single pattern is its sign, its exponent and its fraction. -/
theorem single_fields (w : Word) : w.toNat = (bit w 0).toNat * 2 ^ 31 + singleExp w * 2 ^ 23 + singleFrac w := by
  have hw := w.isLt
  rw [toNat_bit, singleExp_toNat, singleFrac_toNat]
  omega

/-- A double pattern is its sign, its exponent and its fraction. -/
theorem double_fields (d : Dword) : d.toNat = (fpSign d).toNat * 2 ^ 63 + fpExp d * 2 ^ 52 + fpFrac d := by
  have hd := d.isLt
  rw [fpSign_toNat, fpExp_toNat, fpFrac_toNat]
  omega

theorem singleExp_lt (w : Word) : singleExp w < 256 := BitVec.isLt _

theorem singleFrac_lt (w : Word) : singleFrac w < 2 ^ 23 := BitVec.isLt _

/-- The three bits that DOUBLE puts between the first bit of the exponent and the others. -/
def widening (w : Word) : Bool := if 0 < singleExp w ∧ singleExp w < 255 then !bit w 1 else bit w 1

theorem doubleOf_toNat (w : Word) :
    (doubleOf w).toNat =
      (bits w 0 2).toNat * 2 ^ 62 + (widening w).toNat * (7 * 2 ^ 59) + (bits w 2 30).toNat * 2 ^ 29 := by
  change (bits w 0 2 ++ BitVec.ofBool (widening w) ++ BitVec.ofBool (widening w) ++ BitVec.ofBool (widening w) ++ bits w 2 30 ++
    0#29 : BitVec 64).toNat = _
  simp only [toNat_append, BitVec.toNat_ofBool, BitVec.toNat_ofNat]
  omega

/-- DOUBLE gives the pattern of the same value. -/
theorem doubleOfSingle_doubleOf (w : Word) : doubleOfSingle (doubleOf w) w := by
  have hd := doubleOf_toNat w
  have hw := single_fields w
  have hf := singleFrac_lt w
  have hsign := (bit w 0).toNat_le
  have hfirst := toNat_bit w 1
  have hwide : (widening w).toNat =
      if 0 < singleExp w ∧ singleExp w < 255 then 1 - (bit w 1).toNat else (bit w 1).toNat := by
    unfold widening
    split
    · cases bit w 1 <;> rfl
    · rfl
  rw [toNat_bits, toNat_bits] at hd
  have hexp := singleExp_toNat w
  refine ⟨?_, ?_, ?_⟩
  · have hs : (fpSign (doubleOf w)).toNat = (bit w 0).toNat := by
      rw [fpSign_toNat]
      split at hwide <;> omega
    revert hs
    cases fpSign (doubleOf w) <;> cases bit w 0 <;> decide
  · rw [fpFrac_toNat]
    split at hwide <;> omega
  · rw [fpExp_toNat]
    split at hwide <;> split <;> (try split) <;> omega

/-- The single pattern of which a double pattern is the image. -/
theorem singleOf_of_doubleOfSingle {d : Dword} {w : Word} (h : doubleOfSingle d w) (hn : ¬(singleExp w = 0 ∧ singleFrac w ≠ 0)) :
    singleOf d = w := by
  obtain ⟨hs, hf, he⟩ := h
  have hd := double_fields d
  have hw := single_fields w
  have hfrac := singleFrac_lt w
  have hexp := singleExp_lt w
  have hsign := (bit w 0).toNat_le
  rw [hs] at hd
  unfold singleOf
  apply BitVec.eq_of_toNat_eq
  split
  · next h0 =>
    rw [toNat_append, BitVec.toNat_ofBool, hs]
    have h0' : singleExp w = 0 := by
      rw [he] at h0
      split at h0
      · assumption
      · split at h0 <;> omega
    have hf0 : singleFrac w = 0 := by
      by_contra hne
      exact hn ⟨h0', hne⟩
    rw [hw, h0', hf0, BitVec.toNat_ofNat]
    omega
  · next h0 =>
    rw [toNat_append, toNat_extract, toNat_extract]
    rw [hf] at hd
    split at he
    · omega
    · split at he
      · rw [he] at hd
        omega
      · rw [he] at hd
        have hhigh : d.toNat / 2 ^ 59 = (bit w 0).toNat * 16 + (if singleExp w < 128 then 7 else 8) := by
          split <;> omega
        split at hhigh <;> omega

theorem storeSingleOK_of_doubleOfSingle {d : Dword} {w : Word} (h : doubleOfSingle d w) :
    fpExp d = 0 ∨ storeSingleOK d = true := by
  obtain ⟨-, hf, he⟩ := h
  have hexp := singleExp_lt w
  split at he
  · exact .inl he
  · right
    unfold storeSingleOK
    split at he
    · rw [he]
      rfl
    · have hlow : d.extractLsb' 0 29 = 0#29 := by
        apply BitVec.eq_of_toNat_eq
        rw [toNat_extract]
        rw [fpFrac_toNat] at hf
        change _ = 0
        omega
      rw [hlow, he, decide_eq_true (by omega), decide_eq_true (by omega)]
      exact Bool.or_true _

theorem storeSingleAssist_iff (d : Dword) : storeSingleAssist d = true ↔ 1 ≤ fpExp d ∧ fpExp d ≤ 896 := by
  unfold storeSingleAssist
  rw [Bool.and_eq_true, bne_iff_ne, decide_eq_true_iff, Nat.one_le_iff_ne_zero]

theorem singleDenormal_iff (w : Word) : singleDenormal w = true ↔ singleExp w = 0 ∧ singleFrac w ≠ 0 := by
  have hz {n : Nat} (v : BitVec n) : v = 0 ↔ v.toNat = 0 := (BitVec.toNat_inj (y := 0#n)).symm.trans (by simp)
  unfold singleDenormal singleExp singleFrac
  rw [Bool.and_eq_true, beq_iff_eq, bne_iff_ne, ne_eq, hz, hz]

/-! The bytes of a double word. -/

theorem byteOf_extract (d : Dword) (start : Nat) {k : Nat} (hk : k < 4) :
    byteOf (d.extractLsb' start 32) k = (d >>> (start + 8 * (3 - k))).setWidth 8 := by
  apply BitVec.eq_of_getLsbD_eq
  intro i hi
  rw [byteOf, BitVec.getLsbD_extractLsb', BitVec.getLsbD_extractLsb', BitVec.getLsbD_setWidth, BitVec.getLsbD_ushiftRight,
    decide_eq_true hi, decide_eq_true (by omega), Bool.true_and, Bool.true_and, Bool.true_and, Nat.add_assoc]

theorem bytesOf_doubleOperand (d : Dword) : bytesOf 8 d = doubleOperand d := by
  unfold doubleOperand wordOperand
  simp only [byteOf_extract, Nat.reduceLT]
  rfl

end Sys2Proof.Proofs

/-! Floating-point loads and stores: what is delivered and what is stored (47_load_store_fp_move.md R501 to R521). -/

namespace Sys2Proof.Proofs

open Sys2Proof Sys2Proof.Machine Sys2Proof.Laws

theorem fpMisaligned_of_accessible {s : State} {kind : AccessKind} {ea : Word} {n : Nat} (h : s.fpAccessible kind ea n) :
    s.fpMisaligned ea n = false := by
  obtain ⟨-, -, hword, hnatural, -⟩ := h
  rw [← Bool.not_eq_true, fpMisaligned_iff, ne_eq, not_not]
  by_cases hle : msrLE s.msr = true
  · rw [if_pos hle]
    exact hnatural hle
  · rw [if_neg hle]
    exact hword

theorem setWidth_operandValue_four (s : State) (a : Word) : (operandValue s a 4).setWidth 32 = s.wordAt a := by
  rw [operandValue_four, setWidth_setWidth_word, BitVec.setWidth_eq]

/-! Loads. -/

/-- The state in which a load into frD ends. -/
def loadedFp (s : State) (frD : Reg) (v : Dword) (update : Option Reg) (ea : Word) (l : List BusCycle) : State :=
  ((({ s with lbus := l } : State).setF frD v).updateBase update ea).advance

/-- What a floating-point load changes. -/
theorem loadedFp_result (s : State) (frD : Reg) (v : Dword) (update : Option Reg) (ea : Word) (l : List BusCycle) :
    let t := loadedFp s frD v update ea l
    t.f frD = v ∧ (∀ rA, update = some rA → t.r rA = ea) ∧ sameGprsBut s t update.toList ∧ sameFprsBut s t [frD] ∧
      sameMemory s t ∧ t = { s with gpr := t.gpr, fpr := t.fpr, pc := s.pc + 4, lbus := t.lbus } := by
  intro t
  let u : State := ({ s with lbus := l } : State).setF frD v
  have hu : u.updateBase update ea = { u with gpr := (u.updateBase update ea).gpr } := updateBase_eq u update ea
  have ht : t = { s with gpr := t.gpr, fpr := u.fpr, pc := s.pc + 4, lbus := l } := by
    change loadedFp s frD v update ea l = _
    unfold loadedFp
    rw [hu]
    rfl
  have hf (n : Reg) : t.f n = if n = frD then v else s.f n := by
    have hfpr : t.fpr = u.fpr := by rw [ht]
    exact (f_congr hfpr n).trans (f_setF ({ s with lbus := l } : State) frD n v)
  refine ⟨?_, fun rA hA => updateBase_r_base u update ea hA, fun n hn => updateBase_r_other u update ea hn, fun n hn => ?_,
    sameMemory_of_mem (by rw [ht]), ?_⟩
  · rw [hf, if_pos rfl]
  · rw [hf, if_neg (List.mem_singleton.not.mp hn)]
  · rw [ht]

/-- The end of a single load whose word is `w`. -/
theorem loadSingle_of_accessible (i : Instr) (frD : Reg) (update : Option Reg) {ea : Word} {s : State}
    (h : s.fpAccessible .load ea 4) {w : Word} (hw : s.wordAt (s.busAddress ea 4) = w) :
    ∃ l, loadSingle i frD update ea s =
      if singleDenormal w then raise .fpAssist { s with lbus := l } else .next (loadedFp s frD (doubleOf w) update ea l) := by
  obtain ⟨hfp, hintr, -, -, hcycles⟩ := id h
  obtain ⟨l, hload⟩ := load_done s ea 4 true hintr hcycles
  have hvalue : (BitVec.ofNat 64 (natOfBytes (s.bytesAt (s.busAddress ea 4) 4))).setWidth 32 = w :=
    (setWidth_operandValue_four ..).trans hw
  rw [if_neg (by decide)] at hload
  refine ⟨l, ?_⟩
  rw [loadSingle, fpAvailable_on _ hfp, if_neg (by simp [fpMisaligned_of_accessible h]), hload]
  simp only [hvalue]
  rfl

/-- The end of a double load. -/
theorem loadDouble_of_accessible (i : Instr) (frD : Reg) (update : Option Reg) {ea : Word} {s : State}
    (h : s.fpAccessible .load ea 8) :
    ∃ l, loadDouble i frD update ea s = .next (loadedFp s frD (operandValue s ea 8) update ea l) := by
  obtain ⟨hfp, hintr, -, -, hcycles⟩ := id h
  obtain ⟨l, hload⟩ := load_done s ea 8 false hintr hcycles
  rw [if_pos rfl] at hload
  refine ⟨l, ?_⟩
  rw [loadDouble, fpAvailable_on _ hfp, if_neg (by simp [fpMisaligned_of_accessible h]), hload]
  rfl

/-- Settles O27: the double pattern of the word, the assist exception of a denormalized one, and the eight bytes. -/
theorem fpLoadResult : Obligations.FpLoadResult := by
  refine ⟨fun i s x hx hacc hnormal => ?_, fun i s x hx hacc hd hexp hfrac => ?_, fun i s x hx hacc => ?_⟩
  · obtain ⟨l, hl⟩ := loadSingle_of_accessible i x.fr x.update hacc rfl
    rw [if_neg ((singleDenormal_iff _).not.mpr hnormal)] at hl
    obtain ⟨hf, hresult⟩ :=
      loadedFp_result s x.fr (doubleOf (s.wordAt (s.busAddress x.ea 4))) x.update x.ea l
    refine ⟨_, (exec_fpLoadSingle hx).trans hl, ?_, hresult⟩
    rw [hf]
    exact doubleOfSingle_doubleOf _
  · obtain ⟨l, hl⟩ := loadSingle_of_accessible i x.fr x.update hacc rfl
    rw [if_pos ((singleDenormal_iff _).mpr ⟨hexp, hfrac⟩)] at hl
    have htaken := takeVia_eq ({ s with lbus := l } : State) .fpAssist Exc.fpAssist.causeBit s.pc 0 hd
    exact ⟨_, (exec_fpLoadSingle hx).trans hl, take_enters .fpAssist s.pc 0 (s := { s with lbus := l }) hd,
      congrArg State.excTaken htaken⟩
  · obtain ⟨l, hl⟩ := loadDouble_of_accessible i x.fr x.update hacc
    obtain ⟨hf, hresult⟩ := loadedFp_result s x.fr (operandValue s x.ea 8) x.update x.ea l
    exact ⟨_, (exec_fpLoadDouble hx).trans hl, hf.trans (operandValue_eight s x.ea), hresult⟩

/-! Stores. -/

/-- What a floating-point store of `n` bytes leaves: the bytes of `v` stand from the address of the operand on, the base register is
updated, and nothing else changes but memory, the address and the record of bus cycles. -/
theorem storeFp_of_accessible (i : Instr) (n : Nat) (x : Bool) (v : Dword) (update : Option Reg) {ea : Word} {s : State}
    (hn : n < 2 ^ 32) (hwf : s.memoryCanonical) (h : s.fpAccessible .store ea n) :
    ∃ t, storeFp i n x v update ea s = .next t ∧
      storesBytes (bytesOf n v) (if n = 8 then ea else s.busAddress ea n) s t ∧
      (∀ rA, update = some rA → t.r rA = ea) ∧ sameGprsBut s t update.toList ∧
      t = { s with gpr := t.gpr, mem := t.mem, stale := t.stale, pc := s.pc + 4, lbus := t.lbus } := by
  obtain ⟨-, hintr, -, -, hcycles⟩ := h
  obtain ⟨u, hstore, -, hmem, hframe⟩ := store_done s ea n v x hn hintr hwf hcycles
  obtain ⟨hum, hbase, hgprs, hu⟩ := afterStore_result update ea hframe
  refine ⟨afterStore u update ea, ?_, storesBytes.congr hmem hum, hbase, hgprs, hu⟩
  rw [storeFp, hstore]
  rfl

theorem storeDouble_of_accessible (i : Instr) (frS : Reg) (update : Option Reg) {ea : Word} {s : State}
    (h : s.fpAccessible .store ea 8) : storeDouble i frS update ea s = storeFp i 8 false (s.f frS) update ea s := by
  rw [storeDouble, fpAvailable_on _ h.1, if_neg (by simp [fpMisaligned_of_accessible h])]

theorem execStfiwx_of_accessible (frS rA rB : Reg) {s : State} (h : s.fpAccessible .store (s.eaX rA rB) 4) :
    execStfiwx frS rA rB s =
      storeFp (.stfiwx frS rA rB) 4 true (((s.f frS).extractLsb' 0 32).setWidth 64) none (s.eaX rA rB) s := by
  rw [execStfiwx, fpAvailable_on _ h.1, ← BitVec.setWidth_eq_extractLsb' (by decide)]
  exact if_neg (by simp [fpMisaligned_of_accessible h])

theorem storeSingle_assist (i : Instr) (frS : Reg) (update : Option Reg) {ea : Word} {s : State}
    (h : s.fpAccessible .store ea 4) (hassist : storeSingleAssist (s.f frS) = true) :
    storeSingle i frS update ea s = raise .fpAssist s := by
  rw [storeSingle, fpAvailable_on _ h.1, if_neg (by simp [fpMisaligned_of_accessible h]), if_pos hassist]

theorem storeSingle_stores (i : Instr) (frS : Reg) (update : Option Reg) {ea : Word} {s : State}
    (h : s.fpAccessible .store ea 4) (hassist : ¬storeSingleAssist (s.f frS) = true) :
    storeSingle i frS update ea s =
      storeFp i 4 true ((s.single (s.f frS)).1.setWidth 64) update ea (s.single (s.f frS)).2 := by
  rw [storeSingle, fpAvailable_on _ h.1, if_neg (by simp [fpMisaligned_of_accessible h]), if_neg hassist]

theorem single_stated (s : State) {d : Dword} (h : fpExp d = 0 ∨ storeSingleOK d = true) : s.single d = (singleOf d, s) :=
  if_pos h

/-- At most a free value is drawn for the word of a single store. -/
theorem single_state (s : State) (d : Dword) : (s.single d).2 = { s with freeCount := (s.single d).2.freeCount } := by
  unfold State.single
  split <;> rfl

/-- A single store that is no assist exception stores the word that SINGLE answers. -/
theorem storeSingle_result {i : Instr} {frS : Reg} {update : Option Reg} {ea : Word} {s : State} (hwf : s.memoryCanonical)
    (h : s.fpAccessible .store ea 4) (hassist : ¬(1 ≤ fpExp (s.f frS) ∧ fpExp (s.f frS) ≤ 896)) :
    ∃ t, storeSingle i frS update ea s = .next t ∧
      t.wordAt (s.busAddress ea 4) = (s.single (s.f frS)).1 ∧ sameMemoryBut s t (s.busAddress ea 4) 4 ∧
      (∀ rA, update = some rA → t.r rA = ea) ∧ sameGprsBut s t update.toList ∧
      t = { (s.single (s.f frS)).2 with gpr := t.gpr, mem := t.mem, stale := t.stale, pc := s.pc + 4, lbus := t.lbus } := by
  rw [storeSingle_stores i frS update h ((storeSingleAssist_iff _).not.mpr hassist), single_state]
  generalize (s.single (s.f frS)).2.freeCount = k
  obtain ⟨t, ht, hst, hbase, hgprs, hframe⟩ :=
    storeFp_of_accessible i 4 true ((s.single (s.f frS)).1.setWidth 64) update (s := { s with freeCount := k }) (by decide) hwf h
  rw [if_neg (by decide), bytesOf_wordOperand] at hst
  exact ⟨t, ht, hst.wordAt, hst.others, hbase, hgprs, hframe⟩

/-- Settles O28: the bytes of each store, by its width and by the exponent of the register. -/
theorem fpStoreResult : Obligations.FpStoreResult := by
  refine ⟨fun i s x hx hwf hacc => ?_, fun frS rA rB s hwf hacc => ?_, fun i s x w hx hwf hacc hw hnormal => ?_,
    fun i s x hx hwf hacc hexp => ?_, fun i s x hx hacc hd hlow hhigh => ?_⟩
  case refine_1 =>
    obtain ⟨t, ht, hst, hbase, hgprs, hframe⟩ :=
      storeFp_of_accessible i 8 false (s.f x.fr) x.update (by decide) hwf hacc
    rw [if_pos rfl, bytesOf_doubleOperand] at hst
    obtain ⟨honly, hpc⟩ := onlyStore_of_frame hframe
    exact ⟨t, ((exec_fpStoreDouble hx).trans (storeDouble_of_accessible i x.fr x.update hacc)).trans ht,
      fun k hk => hst.at (by decide : 8 < 2 ^ 32) hk, hst.others, hbase, hgprs, honly, hpc⟩
  case refine_2 =>
    obtain ⟨t, ht, hst, -, hgprs, hframe⟩ :=
      storeFp_of_accessible (.stfiwx frS rA rB) 4 true (((s.f frS).extractLsb' 0 32).setWidth 64) none (by decide) hwf hacc
    rw [if_neg (by decide), bytesOf_wordOperand] at hst
    obtain ⟨honly, hpc⟩ := onlyStore_of_frame hframe
    exact ⟨t, (execStfiwx_of_accessible frS rA rB hacc).trans ht, hst.wordAt, hst.others, hgprs, honly, hpc⟩
  case refine_3 =>
    have hstated := storeSingleOK_of_doubleOfSingle hw
    have hassist : ¬(1 ≤ fpExp (s.f x.fr) ∧ fpExp (s.f x.fr) ≤ 896) := by
      obtain ⟨-, -, he⟩ := hw
      split at he
      · omega
      · split at he <;> omega
    obtain ⟨t, ht, hword, hothers, hbase, hgprs, hframe⟩ := storeSingle_result hwf hacc hassist
    rw [single_stated s hstated] at hword hframe
    obtain ⟨honly, hpc⟩ := onlyStore_of_frame hframe
    exact ⟨t, (exec_fpStoreSingle hx).trans ht, hword.trans (singleOf_of_doubleOfSingle hw hnormal), hothers, hbase, hgprs, honly,
      hpc⟩
  case refine_4 =>
    obtain ⟨t, ht, hword, hothers, hbase, hgprs, hframe⟩ := storeSingle_result hwf hacc hexp
    refine ⟨t, (exec_fpStoreSingle hx).trans ht, fun h0 => ?_, fun h2047 => ?_, hothers, hbase, hgprs, ?_⟩
    · rw [hword, single_stated s (.inl h0)]
      exact if_pos h0
    · have hok : storeSingleOK (s.f x.fr) = true := by
        rw [storeSingleOK, h2047]
        rfl
      rw [hword, single_stated s (.inr hok)]
      exact if_neg (by rw [h2047]; decide)
    · rw [single_state] at hframe
      generalize (s.single (s.f x.fr)).2.freeCount = k at hframe
      have hfree : t.freeCount = k := by rw [hframe]
      rw [hfree]
      exact hframe
  case refine_5 =>
    have hassist : storeSingleAssist (s.f x.fr) = true := (storeSingleAssist_iff _).mpr ⟨hlow, hhigh⟩
    exact raises_of_exec ((exec_fpStoreSingle hx).trans (storeSingle_assist i x.fr x.update hacc hassist)) rfl hd

end Sys2Proof.Proofs

/-! Synchronization and the block invalidate (49_processor_control_sync_cache.md R609 to R612; 20_memory.md R155, R173). -/

namespace Sys2Proof.Proofs

open Sys2Proof Sys2Proof.Machine Sys2Proof.Laws

/-- The fetches that `flushFetch` leaves: no older version is in the queue or in a buffer. -/
theorem flushFetch_stale (s : State) : ∀ e ∈ s.flushFetch.stale, e.queued = false ∧ e.buffered = false := by
  intro e he
  change e ∈ ((s.stale.map fun e => { e with queued := false, buffered := false }).filter _) at he
  obtain ⟨old, -, rfl⟩ := List.mem_map.mp (List.mem_filter.mp he).1
  exact ⟨rfl, rfl⟩

/-- What `icbi` leaves of the lines: those that do not hold the byte and the locked ones as they are. -/
def withoutBlock (a : Word) (k : BitVec 7) (l : CacheLine) : CacheLine :=
  { l with valid := l.valid && (!(k == setOf a && l.hits a) || l.lock) }

theorem withoutBlock_of_miss {a : Word} {k : BitVec 7} {l : CacheLine} (h : (k == setOf a && l.hits a) = false) :
    withoutBlock a k l = l := by
  simp [withoutBlock, h]

theorem withoutBlock_of_lock {a : Word} {k : BitVec 7} {l : CacheLine} (h : l.lock = true) : withoutBlock a k l = l := by
  have hv : (l.valid && (!(k == setOf a && l.hits a) || l.lock)) = l.valid := by rw [h, Bool.or_true, Bool.and_true]
  rw [withoutBlock, hv]

theorem withoutBlock_of_hit {a : Word} {l : CacheLine} (h : l.hits a = true) :
    withoutBlock a (setOf a) l = { l with valid := l.valid && l.lock } := by
  simp [withoutBlock, h]

theorem lockedLine_some {s : State} {a : Word} {w : Bool} (h : (s.setFor a).hitWay a = some w) :
    s.lockedLine a = (s.lineOfSet (setOf a) w).lock := by
  simp only [State.lockedLine, h]
  rfl

theorem lockedLine_none {s : State} {a : Word} (h : (s.setFor a).hitWay a = none) : s.lockedLine a = false := by
  simp only [State.lockedLine, h]

theorem hits_false_of_miss {s : State} {a : Word} (h : (s.setFor a).hitWay a = none) (k : BitVec 7) (way : Bool) :
    (k == setOf a && (s.lineOfSet k way).hits a) = false := by
  by_cases hk : k = setOf a
  · subst hk
    have hway : (s.lineOfSet (setOf a) way).hits a = false := not_hits_of_hitWay_none h way
    rw [hway, Bool.and_false]
  · rw [beq_eq_false_iff_ne.mpr hk, Bool.false_and]

/-- The frame of a block invalidate: the cache and the older versions. -/
theorem invalidateBlock_frame (s : State) (a : Word) :
    s.invalidateBlock a = { s with icache := (s.invalidateBlock a).icache, stale := (s.invalidateBlock a).stale } := by
  unfold State.invalidateBlock
  split <;> rfl

/-- The arrays after a block invalidate of a line that is in way `w` and not locked. -/
theorem invalidateBlock_sets_hit {s : State} {a : Word} {w : Bool} (h : (s.setFor a).hitWay a = some w)
    (hl : (s.lineOfSet (setOf a) w).lock = false) :
    (s.invalidateBlock a).icache.sets = (putLine s a w (s.lineOfSet (setOf a) w).invalidate).icache.sets := by
  have hfree : ¬s.lockedLine a = true := by rw [lockedLine_some h, hl]; exact Bool.false_ne_true
  rw [State.invalidateBlock, if_neg hfree]
  simp only [h]
  rfl

theorem invalidateBlock_sets_miss {s : State} {a : Word} (h : (s.setFor a).hitWay a = none) :
    (s.invalidateBlock a).icache.sets = s.icache.sets := by
  have hfree : ¬s.lockedLine a = true := by rw [lockedLine_none h]; exact Bool.false_ne_true
  rw [State.invalidateBlock, if_neg hfree]
  simp only [h]
  rfl

theorem setAt_congr {c d : ICache} (h : d.sets = c.sets) (k : BitVec 7) : d.setAt k = c.setAt k := by
  rw [ICache.setAt, h]
  rfl

theorem lineOfSet_congr {s t : State} (h : t.icache.sets = s.icache.sets) (k : BitVec 7) (way : Bool) :
    t.lineOfSet k way = s.lineOfSet k way := congrArg (CacheSet.way · way) (setAt_congr h k)

/-- The lines and the LRU bits after a block invalidate (R173, D28). -/
theorem invalidateBlock_result {s : State} (hs : s.cacheSound) (a : Word) :
    (∀ k way, (s.invalidateBlock a).lineOfSet k way = withoutBlock a k (s.lineOfSet k way)) ∧
      ∀ k, ((s.invalidateBlock a).icache.setAt k).lru = (s.icache.setAt k).lru := by
  cases h : (s.setFor a).hitWay a with
  | none =>
    have hsets := invalidateBlock_sets_miss h
    refine ⟨fun k way => ?_, fun k => congrArg CacheSet.lru (setAt_congr hsets k)⟩
    rw [lineOfSet_congr hsets, withoutBlock_of_miss (hits_false_of_miss h k way)]
  | some w =>
    cases hl : (s.lineOfSet (setOf a) w).lock with
    | true =>
      have heq : s.invalidateBlock a = s := if_pos ((lockedLine_some h).trans hl)
      rw [heq]
      refine ⟨fun k way => ?_, fun k => rfl⟩
      by_cases hk : k = setOf a ∧ way = w
      · obtain ⟨rfl, rfl⟩ := hk
        rw [withoutBlock_of_lock hl]
      · have hmiss := hits_iff_place hs h k way
        rw [decide_eq_false hk] at hmiss
        rw [withoutBlock_of_miss hmiss]
    | false =>
      have hsets := invalidateBlock_sets_hit h hl
      refine ⟨fun k way => ?_, fun k => (congrArg CacheSet.lru (setAt_congr hsets k)).trans (lru_putLine s a w _ k)⟩
      rw [lineOfSet_congr hsets, lineOfSet_putLine]
      by_cases hk : k = setOf a ∧ way = w
      · rw [if_pos hk]
        obtain ⟨rfl, rfl⟩ := hk
        have hhit : (s.lineOfSet (setOf a) way).hits a = true := hits_of_hitWay h
        rw [invalidate_eq, withoutBlock_of_hit hhit]
      · have hmiss := hits_iff_place hs h k way
        rw [decide_eq_false hk] at hmiss
        rw [if_neg hk, withoutBlock_of_miss hmiss]

/-- Settles O57: `sync` and `eieio` advance, `isync` empties what fetches may still use, `icbi` drops one line. -/
theorem synchronizationResult : Obligations.SynchronizationResult := by
  refine ⟨fun s => ⟨rfl, rfl⟩, fun s => ?_, fun rA rB s hs => ?_⟩
  · exact ⟨s.flushFetch.advance, rfl, rfl, rfl, rfl, flushFetch_stale s, fun a => rfl, rfl⟩
  · let a := s.eaX rA rB
    obtain ⟨hlines, hlru⟩ := invalidateBlock_result hs a
    have hframe := invalidateBlock_frame s a
    have hmem : (s.invalidateBlock a).mem = s.mem := by rw [hframe]
    refine ⟨(s.invalidateBlock a).advance, rfl, hlines, hlru, sameMemory_of_mem hmem, ?_⟩
    change (s.invalidateBlock a).advance = { s with
      icache := (s.invalidateBlock a).icache, stale := (s.invalidateBlock a).stale, pc := s.pc + 4 }
    exact congrArg State.advance hframe

end Sys2Proof.Proofs

/-! Moves to the special registers that store their value (49_processor_control_sync_cache.md R590, R591;
62_debug_mode_and_port.md R771). -/

namespace Sys2Proof.Proofs

open Sys2Proof Sys2Proof.Machine Sys2Proof.Laws

/-- The registers that `sprValue` reads are the same, but for the one with number `n`. -/
structure SprsAgree (n : BitVec 10) (s t : State) : Prop where
  xer : n ≠ 1 → t.xer = s.xer
  lr : n ≠ 8 → t.lr = s.lr
  ctr : n ≠ 9 → t.ctr = s.ctr
  dsisr : n ≠ 18 → t.dsisr = s.dsisr
  dar : n ≠ 19 → t.dar = s.dar
  dec : n ≠ 22 → t.dec = s.dec
  srr0 : n ≠ 26 → t.srr0 = s.srr0
  srr1 : n ≠ 27 → t.srr1 = s.srr1
  cmpA : n ≠ 144 → t.cmpA = s.cmpA
  cmpB : n ≠ 145 → t.cmpB = s.cmpB
  cmpC : n ≠ 146 → t.cmpC = s.cmpC
  cmpD : n ≠ 147 → t.cmpD = s.cmpD
  der : n ≠ 149 → t.der = s.der
  cmpE : n ≠ 152 → t.cmpE = s.cmpE
  cmpF : n ≠ 153 → t.cmpF = s.cmpF
  cmpG : n ≠ 154 → t.cmpG = s.cmpG
  cmpH : n ≠ 155 → t.cmpH = s.cmpH
  lctrl1 : n ≠ 156 → t.lctrl1 = s.lctrl1
  bar : n ≠ 159 → t.bar = s.bar
  sprg0 : n ≠ 272 → t.sprg0 = s.sprg0
  sprg1 : n ≠ 273 → t.sprg1 = s.sprg1
  sprg2 : n ≠ 274 → t.sprg2 = s.sprg2
  sprg3 : n ≠ 275 → t.sprg3 = s.sprg3
  icadr : n ≠ 561 → t.icadr = s.icadr
  fpecr : n ≠ 1022 → t.fpecr = s.fpecr
  lctrl2 : t.readLctrl2 = s.readLctrl2
  ictrl : t.readIctrl = s.readIctrl

theorem SprsAgree.refl (n : BitVec 10) (s : State) : SprsAgree n s s := by
  constructor
  case lctrl2 | ictrl => rfl
  all_goals exact fun _ => rfl

theorem SprsAgree.sprValue {n m : BitVec 10} {s t : State} (h : SprsAgree n s t) (hm : m ≠ n) : sprValue t m = sprValue s m := by
  have hne {k : Nat} (hk : m.toNat = k) : n ≠ BitVec.ofNat 10 k := fun hn => hm ((spr_eq_of_toNat hk).trans hn.symm)
  unfold Machine.sprValue
  split
  case h_1 hk => exact congrArg some (h.xer (hne hk))
  case h_2 hk => exact congrArg some (h.lr (hne hk))
  case h_3 hk => exact congrArg some (h.ctr (hne hk))
  case h_4 hk => exact congrArg some (h.dsisr (hne hk))
  case h_5 hk => exact congrArg some (h.dar (hne hk))
  case h_6 hk => exact congrArg some (h.dec (hne hk))
  case h_7 hk => exact congrArg some (h.srr0 (hne hk))
  case h_8 hk => exact congrArg some (h.srr1 (hne hk))
  case h_9 hk => exact congrArg some (h.cmpA (hne hk))
  case h_10 hk => exact congrArg some (h.cmpB (hne hk))
  case h_11 hk => exact congrArg some (h.cmpC (hne hk))
  case h_12 hk => exact congrArg some (h.cmpD (hne hk))
  case h_13 hk => exact congrArg some (h.der (hne hk))
  case h_14 hk => exact congrArg some (h.cmpE (hne hk))
  case h_15 hk => exact congrArg some (h.cmpF (hne hk))
  case h_16 hk => exact congrArg some (h.cmpG (hne hk))
  case h_17 hk => exact congrArg some (h.cmpH (hne hk))
  case h_18 hk => exact congrArg some (h.lctrl1 (hne hk))
  case h_19 hk => exact congrArg some h.lctrl2
  case h_20 hk => exact congrArg some h.ictrl
  case h_21 hk => exact congrArg some (h.bar (hne hk))
  case h_22 hk => exact congrArg some (h.sprg0 (hne hk))
  case h_23 hk => exact congrArg some (h.sprg1 (hne hk))
  case h_24 hk => exact congrArg some (h.sprg2 (hne hk))
  case h_25 hk => exact congrArg some (h.sprg3 (hne hk))
  case h_26 hk => rfl
  case h_27 hk => exact congrArg some (h.icadr (hne hk))
  case h_28 hk => exact congrArg some (h.fpecr (hne hk))
  case h_29 => rfl

/-- What a write of register `n` that stores its value leaves: the bits of `k` in the register, every other register, and nothing
else but the request of the decrementer. -/
structure StoresSpr (n : BitVec 10) (k v : Word) (s t : State) : Prop where
  value : sprValue t n = some (v &&& k)
  others : SprsAgree n s t
  pending : t.decPending = (s.decPending || (decide (n = 22#10) && !bit s.dec 0 && bit v 0))
  frame : t = { s with
    xer := t.xer, lr := t.lr, ctr := t.ctr, dsisr := t.dsisr, dar := t.dar, dec := t.dec, decPending := t.decPending
    srr0 := t.srr0, srr1 := t.srr1, sprg0 := t.sprg0, sprg1 := t.sprg1, sprg2 := t.sprg2, sprg3 := t.sprg3
    cmpA := t.cmpA, cmpB := t.cmpB, cmpC := t.cmpC, cmpD := t.cmpD, cmpE := t.cmpE, cmpF := t.cmpF, cmpG := t.cmpG
    cmpH := t.cmpH, der := t.der, lctrl1 := t.lctrl1, bar := t.bar, icadr := t.icadr, fpecr := t.fpecr }

/-- A register without reserved bits stores all 32 bits. -/
theorem stored_all (v : Word) : some v = some (v &&& BitVec.allOnes 32) := congrArg some BitVec.and_allOnes.symm

/-- The write of a register that stores its value, where it is not locked. -/
theorem writeSpr_stores {n : BitVec 10} {k : Word} {s : State} (v : Word) (h : sprStored n = some k)
    (hfree : sprDevelopment n = true → ¬s.locked) : StoresSpr n k v s (s.writeSpr n v) := by
  have hdev (hn : sprDevelopment n = true) := writeSpr_unlocked v hn (hfree hn)
  unfold sprStored at h
  split at h <;> cases h
  case h_1 hn =>
    obtain rfl := spr_eq_of_toNat hn
    exact ⟨rfl, { SprsAgree.refl 1 s with xer := absurd rfl }, (Bool.or_false _).symm, rfl⟩
  case h_2 hn =>
    obtain rfl := spr_eq_of_toNat hn
    exact ⟨stored_all v, { SprsAgree.refl 8 s with lr := absurd rfl }, (Bool.or_false _).symm, rfl⟩
  case h_3 hn =>
    obtain rfl := spr_eq_of_toNat hn
    exact ⟨stored_all v, { SprsAgree.refl 9 s with ctr := absurd rfl }, (Bool.or_false _).symm, rfl⟩
  case h_4 hn =>
    obtain rfl := spr_eq_of_toNat hn
    exact ⟨stored_all v, { SprsAgree.refl 18 s with dsisr := absurd rfl }, (Bool.or_false _).symm, rfl⟩
  case h_5 hn =>
    obtain rfl := spr_eq_of_toNat hn
    exact ⟨stored_all v, { SprsAgree.refl 19 s with dar := absurd rfl }, (Bool.or_false _).symm, rfl⟩
  case h_6 hn =>
    obtain rfl := spr_eq_of_toNat hn
    exact ⟨stored_all v, { SprsAgree.refl 22 s with dec := absurd rfl }, rfl, rfl⟩
  case h_7 hn =>
    obtain rfl := spr_eq_of_toNat hn
    exact ⟨stored_all v, { SprsAgree.refl 26 s with srr0 := absurd rfl }, (Bool.or_false _).symm, rfl⟩
  case h_8 hn =>
    obtain rfl := spr_eq_of_toNat hn
    exact ⟨stored_all v, { SprsAgree.refl 27 s with srr1 := absurd rfl }, (Bool.or_false _).symm, rfl⟩
  case h_9 hn =>
    obtain rfl := spr_eq_of_toNat hn
    rw [hdev rfl]
    exact ⟨rfl, { SprsAgree.refl 144 s with cmpA := absurd rfl }, (Bool.or_false _).symm, rfl⟩
  case h_10 hn =>
    obtain rfl := spr_eq_of_toNat hn
    rw [hdev rfl]
    exact ⟨rfl, { SprsAgree.refl 145 s with cmpB := absurd rfl }, (Bool.or_false _).symm, rfl⟩
  case h_11 hn =>
    obtain rfl := spr_eq_of_toNat hn
    rw [hdev rfl]
    exact ⟨rfl, { SprsAgree.refl 146 s with cmpC := absurd rfl }, (Bool.or_false _).symm, rfl⟩
  case h_12 hn =>
    obtain rfl := spr_eq_of_toNat hn
    rw [hdev rfl]
    exact ⟨rfl, { SprsAgree.refl 147 s with cmpD := absurd rfl }, (Bool.or_false _).symm, rfl⟩
  case h_13 hn =>
    obtain rfl := spr_eq_of_toNat hn
    rw [hdev rfl]
    exact ⟨rfl, { SprsAgree.refl 149 s with der := absurd rfl }, (Bool.or_false _).symm, rfl⟩
  case h_14 hn =>
    obtain rfl := spr_eq_of_toNat hn
    rw [hdev rfl]
    exact ⟨stored_all v, { SprsAgree.refl 152 s with cmpE := absurd rfl }, (Bool.or_false _).symm, rfl⟩
  case h_15 hn =>
    obtain rfl := spr_eq_of_toNat hn
    rw [hdev rfl]
    exact ⟨stored_all v, { SprsAgree.refl 153 s with cmpF := absurd rfl }, (Bool.or_false _).symm, rfl⟩
  case h_16 hn =>
    obtain rfl := spr_eq_of_toNat hn
    rw [hdev rfl]
    exact ⟨stored_all v, { SprsAgree.refl 154 s with cmpG := absurd rfl }, (Bool.or_false _).symm, rfl⟩
  case h_17 hn =>
    obtain rfl := spr_eq_of_toNat hn
    rw [hdev rfl]
    exact ⟨stored_all v, { SprsAgree.refl 155 s with cmpH := absurd rfl }, (Bool.or_false _).symm, rfl⟩
  case h_18 hn =>
    obtain rfl := spr_eq_of_toNat hn
    rw [hdev rfl]
    exact ⟨rfl, { SprsAgree.refl 156 s with lctrl1 := absurd rfl }, (Bool.or_false _).symm, rfl⟩
  case h_19 hn =>
    obtain rfl := spr_eq_of_toNat hn
    rw [hdev rfl]
    exact ⟨stored_all v, { SprsAgree.refl 159 s with bar := absurd rfl }, (Bool.or_false _).symm, rfl⟩
  case h_20 hn =>
    obtain rfl := spr_eq_of_toNat hn
    exact ⟨stored_all v, { SprsAgree.refl 272 s with sprg0 := absurd rfl }, (Bool.or_false _).symm, rfl⟩
  case h_21 hn =>
    obtain rfl := spr_eq_of_toNat hn
    exact ⟨stored_all v, { SprsAgree.refl 273 s with sprg1 := absurd rfl }, (Bool.or_false _).symm, rfl⟩
  case h_22 hn =>
    obtain rfl := spr_eq_of_toNat hn
    exact ⟨stored_all v, { SprsAgree.refl 274 s with sprg2 := absurd rfl }, (Bool.or_false _).symm, rfl⟩
  case h_23 hn =>
    obtain rfl := spr_eq_of_toNat hn
    exact ⟨stored_all v, { SprsAgree.refl 275 s with sprg3 := absurd rfl }, (Bool.or_false _).symm, rfl⟩
  case h_24 hn =>
    obtain rfl := spr_eq_of_toNat hn
    exact ⟨stored_all v, { SprsAgree.refl 561 s with icadr := absurd rfl }, (Bool.or_false _).symm, rfl⟩
  case h_25 hn =>
    obtain rfl := spr_eq_of_toNat hn
    exact ⟨rfl, { SprsAgree.refl 1022 s with fpecr := absurd rfl }, (Bool.or_false _).symm, rfl⟩

theorem sprWritable_of_stored {n : BitVec 10} {k : Word} (h : sprStored n = some k) : sprWritable n = true := by
  unfold sprStored at h
  split at h <;> cases h
  all_goals
    rename_i hn
    obtain rfl := spr_eq_of_toNat hn
    rfl

/-- Settles O54: the write of a register that stores its value, at the level that permits it. -/
theorem moveToSprResult : Obligations.MoveToSprResult := by
  intro rS n k s hk hl he hlock
  have hfree (hn : sprDevelopment n = true) : ¬s.locked := fun ⟨hen, hin⟩ => hlock ⟨hn, hen, hin⟩
  obtain ⟨hvalue, hothers, hpending, hframe⟩ := writeSpr_stores (s.r rS) hk hfree
  refine ⟨(s.writeSpr n (s.r rS)).advance, ?_, hvalue, fun m hm => hothers.sprValue hm, hpending, congrArg State.advance hframe⟩
  change execMtspr n rS s = _
  rw [execMtspr, sprAccess_allowed _ (sprWritable_of_stored hk) (sprLevel_allows hl) (sprError_none _ he)]
  rfl

end Sys2Proof.Proofs

/-! The user level does not change supervisor state (10_state.md section 4; 49_processor_control_sync_cache.md R585, R587). -/

namespace Sys2Proof.Proofs

open Sys2Proof Sys2Proof.Machine Sys2Proof.Laws

/-- What `sameSupervisor` compares. -/
def supervisorView (s : State) :=
  (s.msr, s.srr0, s.srr1, s.sprg0, s.sprg1, s.sprg2, s.sprg3, s.dsisr, s.dar, s.dec, s.tb, s.iccst, s.icadr, s.der, s.ecr, s.ictrl,
    s.lctrl1, s.lctrl2, s.countA, s.countB, s.cmpA, s.cmpB, s.cmpC, s.cmpD, s.cmpE, s.cmpF, s.cmpG, s.cmpH, s.bar, s.platform,
    s.events, s.port, s.debugEnabled, s.inDebug, s.freeze, bits s.fpecr 0 28)

theorem sameSupervisor_iff (s t : State) : sameSupervisor s t ↔ supervisorView t = supervisorView s := by
  unfold sameSupervisor supervisorView
  simp only [Prod.mk.injEq]

/-! What leaves the view. -/

section
variable (s : State)

@[simp] theorem view_advance : supervisorView s.advance = supervisorView s := rfl
@[simp] theorem view_setR (n : Reg) (v : Word) : supervisorView (s.setR n v) = supervisorView s := rfl
@[simp] theorem view_setF (n : Reg) (v : Dword) : supervisorView (s.setF n v) = supervisorView s := rfl
@[simp] theorem view_setCr (f : BitVec 3) (v : BitVec 4) : supervisorView (s.setCr f v) = supervisorView s := rfl
@[simp] theorem view_setCA (c : Bool) : supervisorView (s.setCA c) = supervisorView s := rfl
@[simp] theorem view_draw : supervisorView s.draw.2 = supervisorView s := rfl

@[simp] theorem view_setOVIf (oe ov : Bool) : supervisorView (s.setOVIf oe ov) = supervisorView s := by
  cases oe <;> rfl

@[simp] theorem view_recordIf (rc : Bool) (v : Word) : supervisorView (s.recordIf rc v) = supervisorView s := by
  cases rc <;> rfl

@[simp] theorem view_recordFp (rc : Bool) : supervisorView (s.recordFp rc) = supervisorView s := by
  cases rc <;> rfl

@[simp] theorem view_setCauses (dnc dnb dna tr : Bool) : supervisorView (s.setCauses dnc dnb dna tr) = supervisorView s := by
  have hbits : bits (s.setCauses dnc dnb dna tr).fpecr 0 28 = bits s.fpecr 0 28 := by
    unfold State.setCauses
    split
    · exact (bits_insertCauses ..).2
    · rfl
  rw [setCauses_eq, supervisorView, hbits, supervisorView]

@[simp] theorem view_updateBase (update : Option Reg) (ea : Word) : supervisorView (s.updateBase update ea) = supervisorView s := by
  cases update <;> rfl

theorem view_drawFRFI (r : FpResult) : supervisorView (drawFRFI s r).2 = supervisorView s := by
  unfold drawFRFI
  split <;> rfl

theorem view_deliverResult (frD : Reg) (rc : Bool) (r : FpResult) :
    supervisorView (s.deliverResult frD rc r) = supervisorView s := by
  rw [deliverResult_steps, view_recordFp, view_setCauses]
  unfold withValue
  split <;> exact view_drawFRFI s r

theorem view_writeBytes (a : Word) (bs : List Byte) : supervisorView (s.writeBytes a bs) = supervisorView s := by
  unfold State.writeBytes State.noteStale
  dsimp only
  split <;> rfl

theorem view_busWrites (l : List Intrusion) : supervisorView (s.busWrites l) = supervisorView s := by
  rw [busWrites_frame]
  rfl

theorem view_intrude : supervisorView s.intrude = supervisorView s := by
  unfold State.intrude
  split
  · rfl
  · exact view_busWrites ..

theorem view_writeFailed (a : Word) (bs : List Byte) : supervisorView (s.writeFailed a bs) = supervisorView s :=
  view_writeBytes s.draw.2 a _

theorem view_single (d : Dword) : supervisorView (s.single d).2 = supervisorView s := by
  rw [single_state]
  rfl

theorem view_invalidateBlock (a : Word) : supervisorView (s.invalidateBlock a) = supervisorView s := by
  rw [invalidateBlock_frame]
  rfl

end

/-! Accesses. -/

theorem view_readCycles (x : Bool) : ∀ (cs : List Cycle) (s : State),
    supervisorView (accessState (readCycles x cs s)) = supervisorView s
  | [], s => rfl
  | c :: cs, s => by
    have ih := view_readCycles x cs (s.intrude.record c false x (s.intrude.bytesAt c.addr c.size))
    have hs := ih.trans (view_intrude s)
    rw [readCycles]
    split
    · exact view_intrude s
    · dsimp only
      split
      all_goals
        next h =>
        rw [h] at hs
        exact hs

theorem view_writeCycles (x : Bool) : ∀ (cs : List Cycle) (bs : List Byte) (s : State),
    supervisorView (accessState (writeCycles x cs bs s)) = supervisorView s
  | [], _, s => rfl
  | c :: cs, bs, s => by
    rw [writeCycles]
    split
    · exact (view_writeFailed ..).trans (view_intrude s)
    · exact (view_writeCycles x cs _ _).trans ((view_writeBytes ..).trans (view_intrude s))

theorem view_load (s : State) (ea : Word) (n : Nat) (x : Bool) :
    supervisorView (accessState (s.load ea n x)) = supervisorView s := by
  have h := view_readCycles x (s.operandCycles ea n) s
  unfold State.load
  split
  all_goals
    next e =>
    rw [e] at h
    exact h

theorem view_store (s : State) (ea : Word) (n : Nat) (v : Dword) (x : Bool) :
    supervisorView (accessState (s.store ea n v x)) = supervisorView s := view_writeCycles ..

theorem view_putRegs : ∀ (k : Nat) (r : Reg) (bs : List Byte) (s : State), supervisorView (putRegs k r bs s) = supervisorView s
  | 0, _, _, _ => rfl
  | k + 1, r, bs, _ => (view_putRegs k (r + 1) (bs.drop 4) _).trans (view_setR ..)

theorem view_of_done {α : Type} {s t : State} {x : Access α} {v : α} (hx : supervisorView (accessState x) = supervisorView s)
    (h : x = .done v t) : supervisorView t = supervisorView s := by
  rw [h] at hx
  exact hx

/-! The answers of a meaning. -/

/-- Every next state that an answer gives without an exception has the supervisor state of `s`. -/
structure Confined (s : State) (r : Result) : Prop where
  view : ∀ t, r = .next t → t.excTaken = none → supervisorView t = supervisorView s

theorem confined_next {s t : State} (h : supervisorView t = supervisorView s) : Confined s (.next t) :=
  ⟨by rintro _ ⟨⟩ -; exact h⟩

theorem confined_nextInstr {s t : State} (h : supervisorView t = supervisorView s) : Confined s (nextInstr t) := confined_next h

theorem confined_refused (s : State) (r : Refusal) : Confined s (.refused r) :=
  ⟨by intro t h; cases h⟩

theorem confined_taken {s t : State} {c : ExcClass} (h : t.excTaken = some c) : Confined s (.next t) :=
  ⟨by rintro _ ⟨⟩ hn; rw [h] at hn; cases hn⟩

theorem Confined.after {s t : State} {r : Result} (h : supervisorView t = supervisorView s) (k : Confined t r) : Confined s r :=
  ⟨fun u hu hn => (k.view u hu hn).trans h⟩

theorem takeVia_excTaken (s : State) (x : Exc) (b : Nat) (srr0 : Word) (info : BitVec 16) :
    (s.takeVia x b srr0 info).excTaken = some (x.classOf info) := (takeVia_keeps s x b srr0 info).2.2

theorem confined_take (s t : State) (x : Exc) (srr0 : Word) (info : BitVec 16) : Confined s (.next (t.take x srr0 info)) :=
  confined_taken (takeVia_excTaken ..)

theorem confined_raise (s t : State) (x : Exc) : Confined s (raise x t) := confined_take ..

theorem confined_fpEnabledTest {s t : State} (srr0 : Word) (info : BitVec 16) (h : supervisorView t = supervisorView s) :
    Confined s (.next (t.fpEnabledTest srr0 info)) := by
  unfold State.fpEnabledTest
  split
  · exact confined_take ..
  · exact confined_next h

theorem confined_finishFp {s t : State} (h : supervisorView t = supervisorView s) : Confined s (finishFp t) := by
  unfold finishFp
  dsimp only
  split
  · exact confined_fpEnabledTest _ _ h
  · exact confined_next h

theorem confined_fpAvailable {s : State} {k : State → Result} (h : Confined s (k s)) : Confined s (fpAvailable s k) := by
  unfold fpAvailable
  split
  · exact h
  · exact confined_raise ..

theorem confined_dataMachineCheck (s t : State) (i : Instr) (ea : Word) : Confined s (dataMachineCheck i ea t) := by
  unfold dataMachineCheck State.machineCheck
  split
  · exact confined_take ..
  · split
    · exact confined_take ..
    · split
      · exact confined_taken (takeVia_excTaken ..)
      · exact confined_taken rfl

theorem confined_alignmentOf (s : State) (i : Instr) (loads : Option (Reg → Bool)) (ea : Word) :
    Confined s (alignmentOf i loads ea s) := by
  unfold alignmentOf
  split
  · exact confined_raise ..
  · exact confined_take ..

/-! The shared operations of the families. -/

section
variable (s : State)

theorem confined_divideUndefined (rD : Reg) (oe rc : Bool) : Confined s (divideUndefined rD oe rc s) := by
  unfold divideUndefined
  dsimp only
  refine confined_nextInstr ?_
  split <;> simp

theorem confined_denormOperand (dnc dnb dna : Bool) : Confined s (denormOperand dnc dnb dna s) := by
  unfold denormOperand
  split
  · exact confined_finishFp (view_setCauses ..)
  · exact confined_raise ..

theorem confined_finishOutcome (o : FpOutcome) (frD : Reg) (rc : Bool) : Confined s (finishOutcome o frD rc s) := by
  cases o with
  | assist => exact confined_raise ..
  | result r => exact confined_finishFp (view_deliverResult s frD rc r)

theorem confined_undefinedSingle (frD : Reg) (rc : Bool) : Confined s (undefinedSingle frD rc s) := by
  unfold undefinedSingle
  dsimp only
  split
  · exact confined_raise ..
  · refine confined_finishFp ?_
    split
    · exact (view_setCr ..).trans (view_setCauses ..)
    · exact view_setCauses ..

theorem confined_fpArith (op : FpOp) (p : Precision) (neg : Bool) (frD : Reg) (rc : Bool) :
    Confined s (fpArith op p neg frD rc s) := by
  refine confined_fpAvailable ?_
  split
  · exact confined_undefinedSingle ..
  · split
    · cases op <;> exact confined_denormOperand ..
    · exact confined_finishOutcome ..

theorem confined_execFrsp (frD frB : Reg) (rc : Bool) : Confined s (execFrsp frD frB rc s) := by
  refine confined_fpAvailable ?_
  split
  · exact confined_denormOperand ..
  · exact confined_finishOutcome ..

theorem confined_convertToIntWord (mode : BitVec 2) (frD frB : Reg) (rc : Bool) :
    Confined s (convertToIntWord mode frD frB rc s) := by
  refine confined_fpAvailable ?_
  dsimp only
  split
  · exact confined_raise ..
  · exact confined_finishFp ((view_setCauses ..).trans ((view_deliverResult ..).trans (view_draw s)))

theorem confined_comparing (crfD : BitVec 3) (a b : Dword) (set : Word) : Confined s (comparing crfD a b set s) :=
  confined_nextInstr (view_setCauses ..)

theorem confined_execFcmpu (crfD : BitVec 3) (frA frB : Reg) : Confined s (execFcmpu crfD frA frB s) := by
  refine confined_fpAvailable ?_
  dsimp only
  split
  · exact confined_raise ..
  · exact confined_comparing ..

theorem confined_execFcmpo (crfD : BitVec 3) (frA frB : Reg) : Confined s (execFcmpo crfD frA frB s) := by
  refine confined_fpAvailable ?_
  dsimp only
  split
  · exact confined_raise ..
  · exact confined_comparing ..

theorem confined_movedToFpscr {t : State} (f : Word) (rc : Bool) (h : supervisorView t = supervisorView s) :
    Confined s (movedToFpscr f rc t) :=
  confined_fpEnabledTest _ _ ((view_setCauses ..).trans ((view_recordFp ..).trans h))

theorem confined_execMffs (frD : Reg) (rc : Bool) : Confined s (execMffs frD rc s) :=
  confined_fpAvailable (confined_nextInstr ((view_setCauses ..).trans (view_recordFp ..)))

theorem confined_execMcrfs (crfD crfS : BitVec 3) : Confined s (execMcrfs crfD crfS s) :=
  confined_fpAvailable (confined_movedToFpscr s _ _ (view_setCr ..))

/-! Loads and stores. -/

theorem confined_loadInt (i : Instr) (n : Nat) (ext : Dword → Word) (rD : Reg) (update : Option Reg) (ea : Word) :
    Confined s (loadInt i n ext rD update ea s) := by
  unfold loadInt
  split
  · exact confined_alignmentOf ..
  · split
    · exact confined_dataMachineCheck ..
    · next h =>
      have ht := view_of_done (view_load ..) h
      split <;> exact confined_nextInstr ht

theorem confined_storeInt (i : Instr) (n : Nat) (v : Word) (update : Option Reg) (ea : Word) :
    Confined s (storeInt i n v update ea s) := by
  unfold storeInt
  split
  · exact confined_alignmentOf ..
  · split
    · exact confined_dataMachineCheck ..
    · next h =>
      have ht := view_of_done (view_store ..) h
      split <;> exact confined_nextInstr ht

theorem confined_loadRegs (i : Instr) (rD : Reg) (ea : Word) (n : Nat) : Confined s (loadRegs i rD ea n s) := by
  unfold loadRegs
  split
  · exact confined_dataMachineCheck ..
  · next h => exact confined_nextInstr ((view_putRegs ..).trans (view_of_done (view_readCycles ..) h))

theorem confined_storeRegs (i : Instr) (rS : Reg) (ea : Word) (n : Nat) : Confined s (storeRegs i rS ea n s) := by
  unfold storeRegs
  split
  · exact confined_dataMachineCheck ..
  · next h => exact confined_nextInstr (view_of_done (view_writeCycles ..) h)

theorem confined_loadSingle (i : Instr) (frD : Reg) (update : Option Reg) (ea : Word) :
    Confined s (loadSingle i frD update ea s) := by
  refine confined_fpAvailable ?_
  split
  · exact confined_alignmentOf ..
  · split
    · exact confined_dataMachineCheck ..
    · next h =>
      have ht := view_of_done (view_load ..) h
      split
      · exact confined_raise ..
      · exact confined_nextInstr ((view_updateBase ..).trans ht)

theorem confined_loadDouble (i : Instr) (frD : Reg) (update : Option Reg) (ea : Word) :
    Confined s (loadDouble i frD update ea s) := by
  refine confined_fpAvailable ?_
  split
  · exact confined_alignmentOf ..
  · split
    · exact confined_dataMachineCheck ..
    · next h =>
      have ht := view_of_done (view_load ..) h
      exact confined_nextInstr ((view_updateBase ..).trans ht)

theorem confined_storeFp (i : Instr) (n : Nat) (x : Bool) (v : Dword) (update : Option Reg) (ea : Word) :
    Confined s (storeFp i n x v update ea s) := by
  unfold storeFp
  split
  · exact confined_dataMachineCheck ..
  · next h => exact confined_nextInstr ((view_updateBase ..).trans (view_of_done (view_store ..) h))

theorem confined_storeSingle (i : Instr) (frS : Reg) (update : Option Reg) (ea : Word) :
    Confined s (storeSingle i frS update ea s) := by
  refine confined_fpAvailable ?_
  split
  · exact confined_alignmentOf ..
  · split
    · exact confined_raise ..
    · exact .after (view_single ..) (confined_storeFp ..)

theorem confined_storeDouble (i : Instr) (frS : Reg) (update : Option Reg) (ea : Word) :
    Confined s (storeDouble i frS update ea s) := by
  refine confined_fpAvailable ?_
  split
  · exact confined_alignmentOf ..
  · exact confined_storeFp ..

theorem confined_execStfiwx (frS rA rB : Reg) : Confined s (execStfiwx frS rA rB s) := by
  refine confined_fpAvailable ?_
  dsimp only
  split
  · exact confined_alignmentOf ..
  · exact confined_storeFp ..

theorem confined_fpMove (v : Dword) (frD : Reg) (rc : Bool) : Confined s (fpMove v frD rc s) :=
  confined_fpAvailable (confined_nextInstr ((view_recordFp ..).trans (view_setCauses ..)))

theorem confined_execLwarx (rD rA rB : Reg) : Confined s (execLwarx rD rA rB s) := by
  unfold execLwarx
  dsimp only
  split
  · exact confined_alignmentOf ..
  · split
    · exact confined_dataMachineCheck ..
    · next h =>
      have ht := view_of_done (view_load ..) h
      exact confined_nextInstr ht

theorem confined_execStwcx (rS rA rB : Reg) : Confined s (execStwcx rS rA rB s) := by
  unfold execStwcx
  dsimp only
  split
  · exact confined_alignmentOf ..
  · split
    · exact confined_nextInstr rfl
    · split
      · exact confined_dataMachineCheck ..
      · next h =>
        have ht := view_of_done (view_store ..) h
        exact confined_nextInstr ht

/-! Branches. -/

theorem confined_branchTo (taken : Bool) (target : Word) (lk : Bool) : Confined s (branchTo taken target lk s) := by
  cases lk <;> exact confined_next rfl

theorem confined_execB (li : BitVec 24) (aa lk : Bool) : Confined s (execB li aa lk s) := by
  unfold execB
  dsimp only
  split
  · exact confined_refused ..
  · exact confined_branchTo ..

theorem confined_execBc (bo bi : BitVec 5) (bd : BitVec 14) (aa lk : Bool) : Confined s (execBc bo bi bd aa lk s) := by
  unfold execBc
  dsimp only
  split
  · exact confined_refused ..
  · split
    · exact confined_refused ..
    · exact .after (t := { s with ctr := ctrAfter bo s.ctr }) rfl (confined_branchTo ..)

theorem confined_execBclr (bo bi : BitVec 5) (lk : Bool) : Confined s (execBclr bo bi lk s) := by
  unfold execBclr
  dsimp only
  split
  · exact confined_refused ..
  · split
    · exact confined_refused ..
    · exact .after (t := { s with ctr := ctrAfter bo s.ctr }) rfl (confined_branchTo ..)

theorem confined_execBcctr (bo bi : BitVec 5) (lk : Bool) : Confined s (execBcctr bo bi lk s) := by
  unfold execBcctr
  split
  · exact confined_refused ..
  · split
    · exact confined_refused ..
    · split
      · exact confined_refused ..
      · exact confined_branchTo ..

/-! System linkage and processor control. -/

theorem confined_supervisorOnly {k : State → Result} (h : msrPR s.msr = true) : Confined s (supervisorOnly s k) := by
  rw [supervisorOnly, if_pos h]
  exact confined_take ..

theorem confined_sprAccess {n : BitVec 10} {implemented : Bool} {k : State → Result} (hpr : msrPR s.msr = true)
    (h : implemented = true → sprSupervisor n = false → Confined s (k s)) : Confined s (sprAccess n implemented s k) := by
  unfold sprAccess
  simp only [hpr, Bool.true_and]
  cases hn : sprSupervisor n with
  | true =>
    split
    · exact confined_take ..
    · split
      · exact confined_raise ..
      · exact confined_take ..
  | false =>
    cases implemented with
    | false => split <;> exact confined_raise ..
    | true =>
      split
      · split
        · exact absurd ‹_› Bool.false_ne_true
        · split
          · exact confined_raise ..
          · exact h rfl hn
      · exact h rfl hn

/-- The registers that a program at the user level may read or write are XER, LR and CTR. -/
theorem sprUser_of_implemented {n : BitVec 10} (h : sprReadable n = true ∨ sprWritable n = true) (hn : sprSupervisor n = false) :
    n = 1#10 ∨ n = 8#10 ∨ n = 9#10 := by
  rw [sprSupervisor, BitVec.getLsbD, Nat.testBit_eq_decide_div_mod_eq, decide_eq_false_iff_not] at hn
  simp only [sprReadable, sprWritable, sprReadWrite, sprDevelopment, List.contains_cons, List.contains_nil, Bool.or_false,
    Bool.or_eq_true, Bool.and_eq_true, beq_iff_eq, decide_eq_true_eq, ← BitVec.toNat_inj, BitVec.ofNat_eq_ofNat,
    BitVec.toNat_ofNat, Nat.reduceMod, Nat.reducePow] at h ⊢
  omega

theorem confined_execMfspr (rD : Reg) (n : BitVec 10) (hpr : msrPR s.msr = true) : Confined s (execMfspr rD n s) := by
  refine confined_sprAccess s hpr fun hr hn => ?_
  obtain rfl | rfl | rfl := sprUser_of_implemented (.inl hr) hn
  all_goals exact confined_nextInstr rfl

theorem confined_execMtspr (n : BitVec 10) (rS : Reg) (hpr : msrPR s.msr = true) : Confined s (execMtspr n rS s) := by
  refine confined_sprAccess s hpr fun hw hn => confined_nextInstr ?_
  obtain rfl | rfl | rfl := sprUser_of_implemented (.inr hw) hn
  all_goals rfl

theorem confined_execMftb (rD : Reg) (tbr : BitVec 10) : Confined s (execMftb rD tbr s) := by
  unfold execMftb
  split
  · exact confined_raise ..
  · split
    · exact confined_nextInstr rfl
    · split
      · exact confined_nextInstr rfl
      · exact confined_raise ..

end

/-- At the user level every instruction leaves the supervisor state, or takes an exception. -/
theorem confined_exec (i : Instr) {s : State} (hpr : msrPR s.msr = true) : Confined s (exec i s) := by
  have h := exec_ends i s
  generalize exec i s = r at h
  cases h with
  | arith => exact confined_nextInstr (by simp)
  | arithCarry => exact confined_nextInstr (by simp)
  | divideUndefined => exact confined_divideUndefined ..
  | compareWith => exact confined_nextInstr (view_setCr ..)
  | logical => exact confined_nextInstr (by simp)
  | rotated => exact confined_nextInstr (by simp)
  | shiftedAlgebraic => exact confined_nextInstr (by simp)
  | fpArith => exact confined_fpArith ..
  | frsp => exact confined_execFrsp ..
  | convertToIntWord => exact confined_convertToIntWord ..
  | fcmpu => exact confined_execFcmpu ..
  | fcmpo => exact confined_execFcmpo ..
  | mffs => exact confined_execMffs ..
  | mcrfs => exact confined_execMcrfs ..
  | moveToFpscr f rc => exact confined_fpAvailable (confined_movedToFpscr s _ _ rfl)
  | loadInt => exact confined_loadInt ..
  | storeInt => exact confined_storeInt ..
  | alignmentOf => exact confined_alignmentOf ..
  | loadRegs => exact confined_loadRegs ..
  | storeRegs => exact confined_storeRegs ..
  | loadFree => exact confined_nextInstr rfl
  | loadSingle => exact confined_loadSingle ..
  | loadDouble => exact confined_loadDouble ..
  | storeSingle => exact confined_storeSingle ..
  | storeDouble => exact confined_storeDouble ..
  | stfiwx => exact confined_execStfiwx ..
  | fpMove => exact confined_fpMove ..
  | b => exact confined_execB ..
  | bc => exact confined_execBc ..
  | bclr => exact confined_execBclr ..
  | bcctr => exact confined_execBcctr ..
  | writeCr => exact confined_nextInstr rfl
  | sc => exact confined_take ..
  | rfi => exact confined_supervisorOnly s hpr
  | trap => exact confined_take ..
  | nothing => exact confined_nextInstr rfl
  | writeGpr => exact confined_nextInstr rfl
  | mcrxr => exact confined_nextInstr rfl
  | mfmsr => exact confined_supervisorOnly s hpr
  | mtmsr => exact confined_supervisorOnly s hpr
  | mfspr => exact confined_execMfspr s _ _ hpr
  | mtspr => exact confined_execMtspr s _ _ hpr
  | mftb => exact confined_execMftb ..
  | isync => exact confined_nextInstr rfl
  | lwarx => exact confined_execLwarx ..
  | stwcx => exact confined_execStwcx ..
  | icbi => exact confined_nextInstr (view_invalidateBlock ..)
  | refusedLoad => exact confined_refused ..

/-- Settles O50: every shared operation of the families leaves the supervisor's view, or ends in an exception. -/
theorem userLevelCannotChangeSupervisor : Obligations.UserLevelCannotChangeSupervisor := by
  intro i s t hpr hexec _ ht
  exact (sameSupervisor_iff s t).mpr ((confined_exec i hpr).view t hexec ht)

end Sys2Proof.Proofs

/-! Which instructions run and which are refused (30_encoding.md R216; 48_branch_cr_system_trap.md R541, R545;
46_load_store_multiple_string.md R484). -/

namespace Sys2Proof.Proofs

open Sys2Proof Sys2Proof.Machine Sys2Proof.Laws

/-- The answer is a next state. -/
def Answers (r : Result) : Prop := ∃ t, r = .next t

theorem answers_next (t : State) : Answers (.next t) := ⟨t, rfl⟩

theorem answers_raise (x : Exc) (s : State) : Answers (raise x s) := ⟨_, rfl⟩

theorem answers_dataMachineCheck (i : Instr) (ea : Word) (s : State) : Answers (dataMachineCheck i ea s) := ⟨_, rfl⟩

theorem answers_fpAvailable {s : State} {k : State → Result} (h : Answers (k s)) : Answers (fpAvailable s k) := by
  unfold fpAvailable
  split
  · exact h
  · exact answers_raise ..

theorem answers_supervisorOnly {s : State} {k : State → Result} (h : Answers (k s)) : Answers (supervisorOnly s k) := by
  unfold supervisorOnly
  split
  · exact answers_next _
  · exact h

theorem answers_sprAccess {n : BitVec 10} {implemented : Bool} {s : State} {k : State → Result} (h : Answers (k s)) :
    Answers (sprAccess n implemented s k) := by
  obtain hk | hk | hk := sprAccess_cases n implemented s k <;> rw [hk]
  · exact h
  · exact answers_next _
  · exact answers_raise ..

section
variable (s : State)

theorem answers_alignmentOf (i : Instr) (loads : Option (Reg → Bool)) (ea : Word) : Answers (alignmentOf i loads ea s) := by
  unfold alignmentOf
  split <;> exact answers_raise ..

/-! Floating point. -/

theorem answers_denormOperand (dnc dnb dna : Bool) : Answers (denormOperand dnc dnb dna s) := by
  unfold denormOperand
  split
  · exact answers_next _
  · exact answers_raise ..

theorem answers_finishOutcome (o : FpOutcome) (frD : Reg) (rc : Bool) : Answers (finishOutcome o frD rc s) := by
  cases o
  · exact answers_raise ..
  · exact answers_next _

theorem answers_undefinedSingle (frD : Reg) (rc : Bool) : Answers (undefinedSingle frD rc s) := by
  unfold undefinedSingle
  dsimp only
  split
  · exact answers_raise ..
  · exact answers_next _

theorem answers_fpArith (op : FpOp) (p : Precision) (neg : Bool) (frD : Reg) (rc : Bool) : Answers (fpArith op p neg frD rc s) := by
  refine answers_fpAvailable ?_
  split
  · exact answers_undefinedSingle ..
  · split
    · cases op <;> exact answers_denormOperand ..
    · exact answers_finishOutcome ..

theorem answers_execFrsp (frD frB : Reg) (rc : Bool) : Answers (execFrsp frD frB rc s) := by
  refine answers_fpAvailable ?_
  split
  · exact answers_denormOperand ..
  · exact answers_finishOutcome ..

theorem answers_convertToIntWord (mode : BitVec 2) (frD frB : Reg) (rc : Bool) : Answers (convertToIntWord mode frD frB rc s) := by
  refine answers_fpAvailable ?_
  dsimp only
  split
  · exact answers_raise ..
  · exact answers_next _

theorem answers_execFcmpu (crfD : BitVec 3) (frA frB : Reg) : Answers (execFcmpu crfD frA frB s) := by
  refine answers_fpAvailable ?_
  dsimp only
  split
  · exact answers_raise ..
  · exact answers_next _

theorem answers_execFcmpo (crfD : BitVec 3) (frA frB : Reg) : Answers (execFcmpo crfD frA frB s) := by
  refine answers_fpAvailable ?_
  dsimp only
  split
  · exact answers_raise ..
  · exact answers_next _

theorem answers_execMffs (frD : Reg) (rc : Bool) : Answers (execMffs frD rc s) := by
  refine answers_fpAvailable ?_
  exact answers_next _

theorem answers_moveToFpscr (f : State → Word) (rc : Bool) : Answers (fpAvailable s fun s => movedToFpscr (f s) rc s) := by
  refine answers_fpAvailable ?_
  exact answers_next _

theorem answers_execMcrfs (crfD crfS : BitVec 3) : Answers (execMcrfs crfD crfS s) := by
  refine answers_fpAvailable ?_
  exact answers_next _

theorem answers_execMtfsfi (crfD : BitVec 3) (imm : BitVec 4) (rc : Bool) : Answers (execMtfsfi crfD imm rc s) := by
  unfold execMtfsfi
  exact answers_moveToFpscr s _ rc

theorem answers_execMtfsf (fm : BitVec 8) (frB : Reg) (rc : Bool) : Answers (execMtfsf fm frB rc s) := by
  unfold execMtfsf
  exact answers_moveToFpscr s _ rc

theorem answers_execMtfsb0 (crbD : BitVec 5) (rc : Bool) : Answers (execMtfsb0 crbD rc s) := by
  unfold execMtfsb0
  exact answers_moveToFpscr s _ rc

theorem answers_execMtfsb1 (crbD : BitVec 5) (rc : Bool) : Answers (execMtfsb1 crbD rc s) := by
  unfold execMtfsb1
  exact answers_moveToFpscr s _ rc

theorem answers_fpMove (v : Dword) (frD : Reg) (rc : Bool) : Answers (fpMove v frD rc s) := by
  refine answers_fpAvailable ?_
  exact answers_next _

/-! Loads and stores. -/

theorem answers_loadInt (i : Instr) (n : Nat) (ext : Dword → Word) (rD : Reg) (update : Option Reg) (ea : Word) :
    Answers (loadInt i n ext rD update ea s) := by
  unfold loadInt
  split
  · exact answers_alignmentOf ..
  · split
    · exact answers_dataMachineCheck ..
    · split <;> exact answers_next _

theorem answers_storeInt (i : Instr) (n : Nat) (v : Word) (update : Option Reg) (ea : Word) :
    Answers (storeInt i n v update ea s) := by
  unfold storeInt
  split
  · exact answers_alignmentOf ..
  · split
    · exact answers_dataMachineCheck ..
    · split <;> exact answers_next _

theorem answers_loadRegs (i : Instr) (rD : Reg) (ea : Word) (n : Nat) : Answers (loadRegs i rD ea n s) := by
  unfold loadRegs
  split
  · exact answers_dataMachineCheck ..
  · exact answers_next _

theorem answers_storeRegs (i : Instr) (rS : Reg) (ea : Word) (n : Nat) : Answers (storeRegs i rS ea n s) := by
  unfold storeRegs
  split
  · exact answers_dataMachineCheck ..
  · exact answers_next _

theorem answers_loadSingle (i : Instr) (frD : Reg) (update : Option Reg) (ea : Word) : Answers (loadSingle i frD update ea s) := by
  refine answers_fpAvailable ?_
  split
  · exact answers_alignmentOf ..
  · split
    · exact answers_dataMachineCheck ..
    · split
      · exact answers_raise ..
      · exact answers_next _

theorem answers_loadDouble (i : Instr) (frD : Reg) (update : Option Reg) (ea : Word) : Answers (loadDouble i frD update ea s) := by
  refine answers_fpAvailable ?_
  split
  · exact answers_alignmentOf ..
  · split
    · exact answers_dataMachineCheck ..
    · exact answers_next _

theorem answers_storeFp (i : Instr) (n : Nat) (x : Bool) (v : Dword) (update : Option Reg) (ea : Word) :
    Answers (storeFp i n x v update ea s) := by
  unfold storeFp
  split
  · exact answers_dataMachineCheck ..
  · exact answers_next _

theorem answers_storeSingle (i : Instr) (frS : Reg) (update : Option Reg) (ea : Word) : Answers (storeSingle i frS update ea s) := by
  refine answers_fpAvailable ?_
  split
  · exact answers_alignmentOf ..
  · split
    · exact answers_raise ..
    · exact answers_storeFp ..

theorem answers_storeDouble (i : Instr) (frS : Reg) (update : Option Reg) (ea : Word) : Answers (storeDouble i frS update ea s) := by
  refine answers_fpAvailable ?_
  split
  · exact answers_alignmentOf ..
  · exact answers_storeFp ..

theorem answers_execStfiwx (frS rA rB : Reg) : Answers (execStfiwx frS rA rB s) := by
  refine answers_fpAvailable ?_
  dsimp only
  split
  · exact answers_alignmentOf ..
  · exact answers_storeFp ..

/-- A multiple or a string instruction: the alignment exception or the transfer. -/
theorem answers_loadTransfer (c : Prop) [Decidable c] (i j : Instr) (loads : Option (Reg → Bool)) (rD : Reg) (ea : Word) (n : Nat) :
    Answers (if c then alignmentOf i loads ea s else loadRegs j rD ea n s) := by
  split
  · exact answers_alignmentOf ..
  · exact answers_loadRegs ..

theorem answers_storeTransfer (c : Prop) [Decidable c] (i j : Instr) (loads : Option (Reg → Bool)) (rS : Reg) (ea : Word) (n : Nat) :
    Answers (if c then alignmentOf i loads ea s else storeRegs j rS ea n s) := by
  split
  · exact answers_alignmentOf ..
  · exact answers_storeRegs ..

theorem answers_execLwarx (rD rA rB : Reg) : Answers (execLwarx rD rA rB s) := by
  unfold execLwarx
  dsimp only
  split
  · exact answers_alignmentOf ..
  · split
    · exact answers_dataMachineCheck ..
    · exact answers_next _

theorem answers_execStwcx (rS rA rB : Reg) : Answers (execStwcx rS rA rB s) := by
  unfold execStwcx
  dsimp only
  split
  · exact answers_alignmentOf ..
  · split
    · exact answers_next _
    · split
      · exact answers_dataMachineCheck ..
      · exact answers_next _

/-! Division, traps and the time base. -/

theorem answers_execDivw (rD rA rB : Reg) (oe rc : Bool) : Answers (execDivw rD rA rB oe rc s) := by
  unfold execDivw
  dsimp only
  split <;> exact answers_next _

theorem answers_execDivwu (rD rA rB : Reg) (oe rc : Bool) : Answers (execDivwu rD rA rB oe rc s) := by
  unfold execDivwu
  dsimp only
  split <;> exact answers_next _

theorem answers_execTw (trapOn : BitVec 5) (rA rB : Reg) : Answers (execTw trapOn rA rB s) := by
  unfold execTw
  split <;> exact answers_next _

theorem answers_execTwi (trapOn : BitVec 5) (rA : Reg) (simm : BitVec 16) : Answers (execTwi trapOn rA simm s) := by
  unfold execTwi
  split <;> exact answers_next _

theorem answers_execRfi : Answers (execRfi s) := by
  refine answers_supervisorOnly ?_
  exact answers_next _

theorem answers_execMfmsr (rD : Reg) : Answers (execMfmsr rD s) := by
  refine answers_supervisorOnly ?_
  exact answers_next _

theorem answers_execMtmsr (rS : Reg) : Answers (execMtmsr rS s) := by
  refine answers_supervisorOnly ?_
  exact answers_next _

theorem answers_execMtspr (n : BitVec 10) (rS : Reg) : Answers (execMtspr n rS s) := by
  refine answers_sprAccess ?_
  exact answers_next _

theorem answers_execMfspr (rD : Reg) (n : BitVec 10) : Answers (execMfspr rD n s) := by
  refine answers_sprAccess ?_
  split <;> exact answers_next _

theorem answers_execMftb (rD : Reg) (tbr : BitVec 10) : Answers (execMftb rD tbr s) := by
  unfold execMftb
  split
  · exact answers_raise ..
  · split
    · exact answers_next _
    · split
      · exact answers_next _
      · exact answers_raise ..

end

/-! The forms that may be refused: branches, and `lswx`. -/

section
variable {s : State}

theorem answers_execB (li : BitVec 24) (aa lk : Bool) (h : s.inDebug = false) : Answers (execB li aa lk s) := by
  simp only [execB, h, Bool.false_eq_true, if_false]
  exact answers_next _

theorem answers_execBc {bo : BitVec 5} (bi : BitVec 5) (bd : BitVec 14) (aa lk : Bool) (hbo : validBO bo = true)
    (h : s.inDebug = false) : Answers (execBc bo bi bd aa lk s) := by
  simp only [execBc, hbo, unstatedBranch_outside _ _ _ h, Bool.not_true, Bool.false_eq_true, if_false]
  exact answers_next _

theorem answers_execBclr {bo : BitVec 5} (bi : BitVec 5) (lk : Bool) (hbo : validBO bo = true) (h : s.inDebug = false) :
    Answers (execBclr bo bi lk s) := by
  simp only [execBclr, hbo, unstatedBranch_outside _ _ _ h, Bool.not_true, Bool.false_eq_true, if_false]
  exact answers_next _

theorem answers_execBcctr {bo : BitVec 5} (bi : BitVec 5) (lk : Bool) (hbo : validBOctr bo = true) (h : s.inDebug = false) :
    Answers (execBcctr bo bi lk s) := by
  obtain ⟨hvalid, hctr⟩ := Bool.and_eq_true_iff.mp hbo
  simp only [execBcctr, hctr, hvalid, unstatedBranch_outside _ _ _ h, Bool.not_true, Bool.false_eq_true, if_false]
  exact answers_next _

theorem answers_execLswx {rD rA rB : Reg} (hB : rD ≠ rB)
    (h : msrLE s.msr = false → (xerBytes s.xer = 0 → rD ≠ rA) ∧
      ∀ k, k < (xerBytes s.xer + 3) / 4 → rB ≠ rD + BitVec.ofNat 5 k) : Answers (execLswx rD rA rB s) := by
  cases hle : msrLE s.msr with
  | true =>
    simp only [execLswx, hle, if_true]
    exact answers_alignmentOf ..
  | false =>
    obtain ⟨hA, hrange⟩ := h hle
    by_cases h0 : xerBytes s.xer = 0
    · have hfree : ¬(rD = rA ∨ rD = rB) := not_or.mpr ⟨hA h0, hB⟩
      simp only [execLswx, hle, h0, hfree, Bool.false_eq_true, if_true, if_false]
      exact answers_next _
    · have hout : inRange rD (regCount (xerBytes s.xer)) rB = false := inRange_false hrange
      simp only [execLswx, hle, h0, hout, Bool.false_eq_true, if_false]
      exact answers_loadRegs ..

end

/-! The forms of loads and stores. -/

section
variable {i : Instr} {s : State}

theorem answers_loadForm {x : LoadForm} (h : loadForm s i = some x) : Answers (exec i s) := by
  obtain ⟨ext, hx⟩ := exec_loadForm h
  rw [hx]
  exact answers_loadInt ..

theorem answers_storeForm {x : StoreForm} (h : storeForm s i = some x) : Answers (exec i s) := by
  obtain ⟨v, hx⟩ := exec_storeForm h
  rw [hx]
  exact answers_storeInt ..

theorem answers_fpLoadSingle {x : FpAccessForm} (h : fpLoadSingle s i = some x) : Answers (exec i s) := by
  rw [exec_fpLoadSingle h]
  exact answers_loadSingle ..

theorem answers_fpLoadDouble {x : FpAccessForm} (h : fpLoadDouble s i = some x) : Answers (exec i s) := by
  rw [exec_fpLoadDouble h]
  exact answers_loadDouble ..

theorem answers_fpStoreSingle {x : FpAccessForm} (h : fpStoreSingle s i = some x) : Answers (exec i s) := by
  rw [exec_fpStoreSingle h]
  exact answers_storeSingle ..

theorem answers_fpStoreDouble {x : FpAccessForm} (h : fpStoreDouble s i = some x) : Answers (exec i s) := by
  rw [exec_fpStoreDouble h]
  exact answers_storeDouble ..

end

/-- A valid form runs outside debug mode. -/
theorem answers_exec {i : Instr} {s : State} (hwf : i.wellFormed = true) (h : s.inDebug = false)
    (hstring : ∀ rD rA rB, i = .lswx rD rA rB → msrLE s.msr = false →
      (xerBytes s.xer = 0 → rD ≠ rA) ∧ ∀ k, k < (xerBytes s.xer + 3) / 4 → rB ≠ rD + BitVec.ofNat 5 k) :
    Answers (exec i s) := by
  cases i
  case b => exact answers_execB _ _ _ h
  case bc => exact answers_execBc _ _ _ _ hwf h
  case bclr => exact answers_execBclr _ _ hwf h
  case bcctr => exact answers_execBcctr _ _ hwf h
  case lswx rD rA rB => exact answers_execLswx (bne_iff_ne.mp hwf) (hstring rD rA rB rfl)
  case divw => exact answers_execDivw ..
  case divwu => exact answers_execDivwu ..
  case fadd | fadds | fsub | fsubs | fmul | fmuls | fdiv | fdivs | fmadd | fmadds | fmsub | fmsubs | fnmadd | fnmadds
      | fnmsub | fnmsubs => exact answers_fpArith ..
  case frsp => exact answers_execFrsp ..
  case fctiw | fctiwz => exact answers_convertToIntWord ..
  case fcmpu => exact answers_execFcmpu ..
  case fcmpo => exact answers_execFcmpo ..
  case mffs => exact answers_execMffs ..
  case mcrfs => exact answers_execMcrfs ..
  case mtfsfi => exact answers_execMtfsfi ..
  case mtfsf => exact answers_execMtfsf ..
  case mtfsb0 => exact answers_execMtfsb0 ..
  case mtfsb1 => exact answers_execMtfsb1 ..
  case fmr | fneg | fabs | fnabs => exact answers_fpMove ..
  case lbz | lbzu | lbzx | lbzux | lhz | lhzu | lhzx | lhzux | lha | lhau | lhax | lhaux | lwz | lwzu | lwzx | lwzux
      | lhbrx | lwbrx => exact answers_loadForm rfl
  case stb | stbu | stbx | stbux | sth | sthu | sthx | sthux | stw | stwu | stwx | stwux | sthbrx | stwbrx => exact answers_storeForm rfl
  case lmw | lswi => exact answers_loadTransfer ..
  case stmw | stswi | stswx => exact answers_storeTransfer ..
  case lfs | lfsu | lfsx | lfsux => exact answers_fpLoadSingle rfl
  case lfd | lfdu | lfdx | lfdux => exact answers_fpLoadDouble rfl
  case stfs | stfsu | stfsx | stfsux => exact answers_fpStoreSingle rfl
  case stfd | stfdu | stfdx | stfdux => exact answers_fpStoreDouble rfl
  case stfiwx => exact answers_execStfiwx ..
  case rfi => exact answers_execRfi ..
  case mfmsr => exact answers_execMfmsr ..
  case mtmsr => exact answers_execMtmsr ..
  case tw => exact answers_execTw ..
  case twi => exact answers_execTwi ..
  case mfspr => exact answers_execMfspr ..
  case mtspr => exact answers_execMtspr ..
  case mftb => exact answers_execMftb ..
  case lwarx => exact answers_execLwarx ..
  case stwcx => exact answers_execStwcx ..
  all_goals exact answers_next _

/-! The refusals. -/

theorem exec_lswx_refused {s : State} {rD rA rB : Reg} (hle : msrLE s.msr = false)
    (h : (xerBytes s.xer = 0 ∧ (rD = rA ∨ rD = rB)) ∨ ∃ k, k < (xerBytes s.xer + 3) / 4 ∧ rB = rD + BitVec.ofNat 5 k) :
    exec (.lswx rD rA rB) s = .refused .invalidLoadString := by
  change execLswx rD rA rB s = _
  rcases h with ⟨h0, hreg⟩ | ⟨k, hk, hB⟩
  · simp only [execLswx, hle, h0, hreg, Bool.false_eq_true, if_false, if_true]
  · have hin : inRange rD (regCount (xerBytes s.xer)) rB = true := inRange_of_eq_add hk hB
    have h0 : xerBytes s.xer ≠ 0 := by omega
    simp only [execLswx, hle, h0, hin, Bool.false_eq_true, if_false, if_true]

/-- Settles O17: the valid forms answer a next state, the invalid ones the refusal of their name. -/
theorem validFormsRunInvalidFormsRefused : Obligations.ValidFormsRunInvalidFormsRefused := by
  refine ⟨fun i s hwf h hstring => answers_exec hwf h hstring, fun bo bi bd aa lk s hbo => ⟨?_, ?_, fun hctr => ?_⟩,
    fun bo bi lk s hctr => ?_, fun rD rA rB s hle h => exec_lswx_refused hle h⟩
  · change execBc bo bi bd aa lk s = _
    simp only [execBc, hbo, Bool.not_false, if_true]
  · change execBclr bo bi lk s = _
    simp only [execBclr, hbo, Bool.not_false, if_true]
  · change execBcctr bo bi lk s = _
    simp only [execBcctr, hctr, hbo, Bool.not_true, Bool.not_false, Bool.false_eq_true, if_false, if_true]
  · change execBcctr bo bi lk s = _
    simp only [execBcctr, hctr, Bool.not_false, if_true]

end Sys2Proof.Proofs

/-! Exact arithmetic and rounding as statements about rational numbers (43_fp_arith.md R341, R343, R344). -/

namespace Sys2Proof.Proofs

open Sys2Proof Sys2Proof.Machine Sys2Proof.Laws

/-! The quotient of R343. -/

/-- The quotient of two magnitudes in units of half the last place of the shifted dividend. -/
theorem quotient_scaled (m : Nat) {m' : Nat} (h' : m' ≠ 0) (e e' : Int) :
    (m : ℚ) * (2 : ℚ) ^ e / (m' * (2 : ℚ) ^ e') = (2 : ℚ) * (((m <<< 120 : ℕ) : ℚ) / m') * (2 : ℚ) ^ (e - e' - 121) := by
  have hpos : (0 : ℚ) < m' := by exact_mod_cast Nat.pos_of_ne_zero h'
  have hunit := two_zpow_pos e'
  have hsplit : (2 : ℚ) ^ e = 2 ^ (e - e' - 121) * 2 ^ e' * 2 ^ 121 := by
    rw [← zpow_add₀ (by norm_num), ← zpow_natCast, ← zpow_add₀ (by norm_num)]
    congr 1
    push_cast
    ring
  rw [hsplit, Nat.shiftLeft_eq]
  field_simp
  push_cast
  ring

/-- What the mantissa `a` of a quotient says about the quotient `x` in units of 2^k: exact when `a` is even, else strictly between
its neighbours. -/
def Brackets (a : Nat) (k : Int) (x : ℚ) : Prop :=
  (a % 2 = 0 → (a : ℚ) * 2 ^ k = x) ∧ (a % 2 = 1 → ((a - 1 : ℕ) : ℚ) * 2 ^ k < x ∧ x < ((a + 1 : ℕ) : ℚ) * 2 ^ k)

theorem quotient_brackets (m : Nat) {m' : Nat} (h' : m' ≠ 0) (e e' : Int) :
    Brackets (2 * ((m <<< 120) / m') + (if (m <<< 120) % m' = 0 then 0 else 1)) (e - e' - 121)
      ((m : ℚ) * 2 ^ e / (m' * 2 ^ e')) := by
  have hpos : (0 : ℚ) < m' := by exact_mod_cast Nat.pos_of_ne_zero h'
  have hunit := two_zpow_pos (e - e' - 121)
  rw [quotient_scaled m h']
  generalize m <<< 120 = a
  have hdm := Nat.div_add_mod a m'
  have hmod := Nat.mod_lt a (Nat.pos_of_ne_zero h')
  by_cases hr : a % m' = 0
  · rw [if_pos hr]
    refine ⟨fun _ => ?_, fun hodd => by omega⟩
    have ha : (a : ℚ) = m' * (a / m' : ℕ) := by exact_mod_cast (by omega : a = m' * (a / m'))
    have hq : (a : ℚ) / m' = (a / m' : ℕ) := by rw [ha, mul_div_cancel_left₀ _ hpos.ne']
    rw [hq]
    push_cast
    ring
  · rw [if_neg hr]
    refine ⟨fun heven => by omega, fun _ => ⟨?_, ?_⟩⟩
    · have hlo : ((a / m' : ℕ) : ℚ) < a / m' := by
        rw [lt_div_iff₀ hpos]
        exact_mod_cast (by rw [mul_comm]; omega : a / m' * m' < a)
      rw [Nat.add_sub_cancel]
      push_cast
      exact mul_lt_mul_of_pos_right (by linarith) hunit
    · have hhi : (a : ℚ) / m' < (a / m' : ℕ) + 1 := by
        rw [div_lt_iff₀ hpos]
        exact_mod_cast (by rw [add_mul, one_mul, mul_comm]; omega : a < (a / m' + 1) * m')
      push_cast
      exact mul_lt_mul_of_pos_right (by linarith) hunit

/-- A quotient of patterns has more bits than any precision needs. -/
theorem quotient_long {m m' : Nat} (hm : m ≠ 0) (h' : m' ≠ 0) (hlt : m' < 2 ^ 53) : 2 ^ 67 ≤ (m <<< 120) / m' := by
  rw [Nat.le_div_iff_mul_le (Nat.pos_of_ne_zero h'), Nat.shiftLeft_eq]
  have hone : 1 ≤ m := Nat.one_le_iff_ne_zero.mpr hm
  omega

/-- Settles O31: reading, sums, products and negations are exact, and a quotient is bracketed by its mantissa. -/
theorem exactArithmetic : Obligations.ExactArithmetic := by
  refine ⟨fun d hd => ?_, fun rn x y hx hy => ?_, fun n n' m m' e e' hm hm' => ?_⟩
  · rw [numOf_of_isFinite hd]
    exact ⟨rfl, (fpValue_eq d).symm⟩
  · cases x with
    | inf => cases hx
    | fin n m e =>
      cases y with
      | inf => cases hy
      | fin n' m' e' =>
        obtain ⟨k, a, b, hsum, hvalue, -⟩ := add_fin_value rn n m e n' m' e'
        rw [hsum]
        exact ⟨rfl, hvalue, rfl, mul_fin_value n m e n' m' e', rfl, neg_fin_value n m e⟩
  · obtain ⟨heven, hodd⟩ := quotient_brackets m hm' e e'
    refine ⟨_, _, div_fin n e n' e' hm hm', heven, fun h1 => ⟨fun hlt => ?_, hodd h1⟩⟩
    have hlong := quotient_long hm hm' hlt
    omega

/-! Rounding. -/

/-- Every magnitude with a sign is a number that `roundTo` rounds. -/
theorem signed_magnitude (neg : Bool) {m : Nat} (hm : m ≠ 0) (e : Int) :
    let z := signFactor neg * ((m : ℚ) * 2 ^ e)
    |z| = m * 2 ^ e ∧ (z < 0 ↔ neg = true) := by
  have hx : (0 : ℚ) < m * 2 ^ e := mul_pos (by exact_mod_cast Nat.pos_of_ne_zero hm) (two_zpow_pos e)
  refine ⟨?_, signFactor_lt_zero neg hx⟩
  rw [abs_mul, abs_signFactor, one_mul, abs_of_pos hx]

/-- The binade of a number is unique. -/
theorem binade_unique {x : ℚ} {j k : ℤ} (hj : (2 : ℚ) ^ j ≤ x ∧ x < 2 ^ (j + 1)) (hk : (2 : ℚ) ^ k ≤ x ∧ x < 2 ^ (k + 1)) :
    j = k := by
  have hjk := (zpow_lt_zpow_iff_right₀ (by norm_num : (1 : ℚ) < 2)).mp (hj.1.trans_lt hk.2)
  have hkj := (zpow_lt_zpow_iff_right₀ (by norm_num : (1 : ℚ) < 2)).mp (hk.1.trans_lt hj.2)
  omega

/-- Settles O32: `Rounds` of the signed magnitude, in its own binade. -/
theorem roundingIsCorrect : Obligations.RoundingIsCorrect := by
  intro p rn neg m e hm r x y ulp
  obtain ⟨habs, hneg⟩ := signed_magnitude neg hm e
  have hnear : Near m e |signFactor neg * ((m : ℚ) * 2 ^ e)| := .inl habs
  have hsign : decide (signFactor neg * ((m : ℚ) * 2 ^ e) < 0) = neg := by
    rw [Bool.eq_iff_iff, decide_eq_true_eq, hneg]
  have hrounds := roundTo_rounds (p := p) rn hm hnear
  have hbinade := hnear.binade hm
  unfold Rounds at hrounds
  rw [hsign] at hrounds
  simp only [hneg] at hrounds
  rw [habs] at hrounds hbinade
  obtain ⟨k, hlo, hhi, hsig, hwidth, hbelow, hulp, hfi, hfr, hnearest, hzero, hup, hdown⟩ := hrounds
  obtain rfl : k = exponentOf m e := binade_unique ⟨hlo, hhi⟩ hbinade
  exact ⟨hsig, hwidth, hbelow, hulp, hfi, hfr, hnearest, hzero, hup, hdown⟩

end Sys2Proof.Proofs

/-! Conversion to a 32-bit integer (44_fp_convert_compare_fpscr.md R392 to R394). -/

namespace Sys2Proof.Proofs

open Sys2Proof Sys2Proof.Machine Sys2Proof.Laws

/-! Rounding to an integer. -/

section
variable {rn : BitVec 2} {neg fr fi : Bool} {x : ℚ} {n : Nat}

/-- A magnitude rounded to units of one, with its sign, is the number rounded to an integer. -/
theorem roundsTo_of_multiple (hx : 0 ≤ x) (h : RoundsToMultiple rn neg 1 x n fr fi) :
    roundsTo rn (signFactor neg * x) (signedMant neg n) := by
  obtain ⟨hunit, -, -, hnearest, hzero, hup, hdown⟩ := h
  simp only [mul_one] at *
  obtain ⟨hlo, hhi⟩ := abs_lt.mp hunit
  have hdist : |signFactor neg * x - (signedMant neg n : ℤ)| = |(n : ℚ) - x| := by
    rw [cast_signedMant, ← mul_sub, abs_mul, abs_signFactor, one_mul, abs_sub_comm]
  have hparity : signedMant neg n % 2 = 0 ↔ n % 2 = 0 := by
    unfold signedMant
    split <;> omega
  obtain rfl | rfl | rfl | rfl := mode_cases rn
  · obtain ⟨hhalf, htie⟩ := hnearest rfl
    change 2 * |_ - _| ≤ 1 ∧ (2 * |_ - _| = 1 → _)
    rw [hdist, hparity]
    exact ⟨hhalf, htie⟩
  · change if 0 ≤ _ then _ else _
    have hle := hzero rfl
    cases neg with
    | false =>
      simp only [signFactor, signedMant, Bool.false_eq_true, if_false, one_mul, if_pos hx]
      rw [eq_comm, Int.floor_eq_iff]
      push_cast
      exact ⟨hle, by linarith⟩
    | true =>
      simp only [signFactor, signedMant, if_true, neg_one_mul]
      split
      · have h0 : x = 0 := by linarith
        have hn : (n : ℚ) = 0 := le_antisymm (h0 ▸ hle) (Nat.cast_nonneg n)
        rw [h0, neg_zero, Int.floor_zero, Nat.cast_eq_zero.mp hn]
        rfl
      · rw [eq_comm, Int.ceil_eq_iff]
        push_cast
        exact ⟨by linarith, by linarith⟩
  · change _ = ⌈_⌉
    have hside := hup rfl
    rw [eq_comm, Int.ceil_eq_iff, cast_signedMant]
    cases neg with
    | false =>
      simp only [signFactor, Bool.false_eq_true, if_false, one_mul] at hside ⊢
      exact ⟨by linarith, hside⟩
    | true =>
      simp only [signFactor, if_true, neg_one_mul] at hside ⊢
      exact ⟨by linarith, by linarith⟩
  · change _ = ⌊_⌋
    have hside := hdown rfl
    rw [eq_comm, Int.floor_eq_iff, cast_signedMant]
    cases neg with
    | false =>
      simp only [signFactor, Bool.false_eq_true, if_false, one_mul] at hside ⊢
      exact ⟨hside, by linarith⟩
    | true =>
      simp only [signFactor, if_true, neg_one_mul] at hside ⊢
      exact ⟨by linarith, by linarith⟩

/-- FI of a rounding to an integer. -/
theorem inexact_of_multiple (h : RoundsToMultiple rn neg 1 x n fr fi) :
    fi = decide (((signedMant neg n : ℤ) : ℚ) ≠ signFactor neg * x) := by
  obtain ⟨-, hfi, -⟩ := h
  rw [Bool.eq_iff_iff, hfi, decide_eq_true_eq, cast_signedMant, mul_one, ne_eq, ne_eq, mul_right_inj' (signFactor_ne_zero neg)]

/-- FR of a rounding to an integer. -/
theorem grew_of_multiple (hx : 0 ≤ x) (h : RoundsToMultiple rn neg 1 x n fr fi) :
    fr = decide (|signFactor neg * x| < |((signedMant neg n : ℤ) : ℚ)|) := by
  obtain ⟨-, -, hfr, -⟩ := h
  rw [Bool.eq_iff_iff, hfr, decide_eq_true_eq, cast_signedMant, mul_one, abs_mul, abs_mul, abs_signFactor, one_mul, one_mul,
    abs_of_nonneg hx, Nat.abs_cast]

/-- An integer is rounded to itself. -/
theorem roundsTo_int (rn : BitVec 2) (n : ℤ) : roundsTo rn n n := by
  unfold roundsTo
  rw [sub_self, abs_zero, mul_zero, Int.floor_intCast, Int.ceil_intCast]
  split
  · exact ⟨zero_le_one, fun h => absurd h (by norm_num)⟩
  · split
    · split <;> rfl
    · split <;> rfl

end

theorem Dropped.double {u x : ℚ} {kept rest half : Nat} (h : Dropped u x kept rest half) :
    Dropped u x kept (2 * rest) (2 * half) := by
  obtain ⟨hlower, hupper, hexact, hbelow, habove⟩ := h
  exact ⟨hlower, hupper, by rw [← hexact]; omega, by rw [← hbelow]; omega, by rw [← habove]; omega⟩

/-! The magnitude of a pattern, cut at its unit place. -/

/-- The bits of a mantissa above the unit place, and those below it. -/
def wholeOf (m : Nat) (e : Int) : Nat := (m <<< e.toNat) >>> (-e).toNat

def belowUnit (m : Nat) (e : Int) : Nat := m % 2 ^ (-e).toNat

theorem dropped_unit {m : Nat} (e : Int) (hm : m < 2 ^ 54) :
    Dropped 1 ((m : ℚ) * 2 ^ e) (wholeOf m e) (2 * belowUnit m e) (2 ^ (-e).toNat) := by
  unfold wholeOf belowUnit
  obtain ⟨k, rfl⟩ | hneg : (∃ k : Nat, e = k) ∨ e < 0 := by
    obtain h | h := le_or_gt 0 e
    · exact .inl ⟨e.toNat, (Int.toNat_of_nonneg h).symm⟩
    · exact .inr h
  · have hdrop : (-(k : Int)).toNat = 0 := by omega
    have hvalue : (m : ℚ) * 2 ^ (k : Int) = ((m <<< k : ℕ) : ℚ) := by
      rw [Nat.shiftLeft_eq, zpow_natCast]
      push_cast
      ring
    rw [hdrop, Int.toNat_natCast, hvalue, Nat.shiftRight_zero, pow_zero, Nat.mod_one]
    generalize m <<< k = a
    have hmiddle : ((2 : ℚ) * a < 2 * a + 1) := by linarith
    exact ⟨by rw [mul_one], by linarith, by simp, by simp, by simp⟩
  · obtain ⟨q, hq⟩ : ∃ q : Nat, e = -((q + 1 : ℕ) : Int) := ⟨(-e).toNat - 1, by omega⟩
    have hdrop : (-e).toNat = q + 1 := by omega
    have hshift : e.toNat = 0 := by omega
    have hcut := (Near.dropped (m := m) (e := e) (.inl rfl) (drop := q + 1) (by omega) (fun h => by omega)).double
    have hunit : e + ((q + 1 : ℕ) : Int) = 0 := by omega
    rw [hunit, zpow_zero, Nat.add_sub_cancel, ← pow_succ'] at hcut
    rw [hdrop, hshift, Nat.shiftLeft_zero]
    exact hcut

/-! What the conversion finds in a finite operand. -/

/-- The increment of a finite operand. -/
def incOf (mode : BitVec 2) (b : Dword) : Bool :=
  roundUp mode (fpSign b) (wholeOf (mantissaOf b) (unitOf b) % 2 == 1) (2 * belowUnit (mantissaOf b) (unitOf b))
    (2 ^ (-unitOf b).toNat)

/-- The integer to which a finite operand is rounded where its exponent is small. -/
def roundedInt (mode : BitVec 2) (b : Dword) : ℤ :=
  signedMant (fpSign b)
    (if incOf mode b then wholeOf (mantissaOf b) (unitOf b) + 1 else wholeOf (mantissaOf b) (unitOf b))

theorem fpValue_eq_signed (b : Dword) : fpValue b = signFactor (fpSign b) * ((mantissaOf b : ℚ) * 2 ^ unitOf b) :=
  (fpValue_eq b).trans (by rw [value_fin, mul_assoc])

/-- What a conversion finds that rounds its operand to `n`: the integer where it is a word, else an invalid operation. -/
def FindsInt (b : Dword) (mode : BitVec 2) (n : ℤ) : Prop :=
  roundsTo mode (fpValue b) n ∧
    (-2 ^ 31 ≤ n → n ≤ 2 ^ 31 - 1 → convertWord b mode =
      { invalid := 0, word := BitVec.ofInt 32 n, fr := decide (|fpValue b| < |(n : ℚ)|), fi := decide ((n : ℚ) ≠ fpValue b) }) ∧
    ∀ word, (n < -2 ^ 31 ∧ word = 0x80000000#32) ∨ (2 ^ 31 - 1 < n ∧ word = 0x7FFFFFFF#32) →
      ∃ fr, convertWord b mode = { invalid := fpVXCVI, word := word, fr := fr, fi := decide ((n : ℚ) ≠ fpValue b) }

theorem signedMant_lt_zero {neg : Bool} {n : Nat} (h : signedMant neg n < 0) : neg = true := by
  unfold signedMant at h
  split at h
  · assumption
  · omega

theorem signedMant_pos {neg : Bool} {n : Nat} (h : 0 < signedMant neg n) : neg = false := by
  unfold signedMant at h
  split at h
  · omega
  · exact Bool.eq_false_iff.mpr ‹_›

/-- The word of an operand beyond the range has its sign. -/
theorem saturated_of_beyond {neg : Bool} {k : Nat} {n : ℤ} {word : Word} (hn : n = signedMant neg k)
    (h : (n < -2 ^ 31 ∧ word = 0x80000000#32) ∨ (2 ^ 31 - 1 < n ∧ word = 0x7FFFFFFF#32)) : saturated neg = word := by
  subst hn
  obtain ⟨hlt, rfl⟩ | ⟨hgt, rfl⟩ := h
  · rw [signedMant_lt_zero (by omega : signedMant neg k < 0)]
    rfl
  · rw [signedMant_pos (by omega : 0 < signedMant neg k)]
    rfl

theorem isSNaN_of_isFinite {b : Dword} (h : isFinite b = true) : isSNaN b = false := by
  rw [isSNaN, isNaN_of_isFinite h, Bool.false_and]

/-- A finite operand of 2^64 or more is an integer beyond the range. -/
theorem findsInt_large {b : Dword} (mode : BitVec 2) (hfin : isFinite b = true) (hbig : 1086 < fpExp b) :
    ∃ n, FindsInt b mode n := by
  obtain ⟨k, hk⟩ : ∃ k, k = (2 ^ 52 + fpFrac b) * 2 ^ (fpExp b - 1075) := ⟨_, rfl⟩
  have hvalue : fpValue b = ((signedMant (fpSign b) k : ℤ) : ℚ) := by
    have hexp : (fpExp b : ℤ) - 1075 = ((fpExp b - 1075 : ℕ) : ℤ) := by omega
    rw [cast_signedMant, fpValue, if_neg (by omega), hexp, zpow_natCast, hk]
    push_cast
    ring
  have hlarge : 2 ^ 63 ≤ k := by
    have hpow : 2 ^ 11 ≤ 2 ^ (fpExp b - 1075) := Nat.pow_le_pow_right (by decide) (by omega)
    calc 2 ^ 63 = 2 ^ 52 * 2 ^ 11 := by norm_num
      _ ≤ (2 ^ 52 + fpFrac b) * 2 ^ (fpExp b - 1075) := Nat.mul_le_mul (Nat.le_add_right ..) hpow
      _ = k := hk.symm
  have hword : convertWord b mode = { invalid := fpVXCVI, word := saturated (fpSign b), fr := false, fi := false } := by
    simp only [convertWord, isSNaN_of_isFinite hfin, isNaN_of_isFinite hfin, Bool.false_eq_true, if_false, if_pos hbig]
  have hexact : decide (((signedMant (fpSign b) k : ℤ) : ℚ) ≠ fpValue b) = false := by
    rw [hvalue, decide_eq_false_iff_not, ne_eq, not_not]
  refine ⟨signedMant (fpSign b) k, ?_, fun hlo hhi => ?_, fun word h => ⟨false, ?_⟩⟩
  · rw [hvalue]
    exact roundsTo_int _ _
  · unfold signedMant at hlo hhi
    cases hs : fpSign b <;> simp only [hs, if_true, Bool.false_eq_true, if_false] at hlo hhi <;> omega
  · rw [hword, hexact, saturated_of_beyond rfl h]

/-- A finite operand below 2^64 is cut at its unit place and rounded. -/
theorem findsInt_small {b : Dword} (mode : BitVec 2) (hfin : isFinite b = true) (hsmall : ¬1086 < fpExp b) :
    ∃ n, FindsInt b mode n := by
  have hm : mantissaOf b < 2 ^ 54 := (mantissaOf_lt b).trans (by norm_num)
  have hx : (0 : ℚ) ≤ (mantissaOf b : ℚ) * 2 ^ unitOf b := mul_nonneg (Nat.cast_nonneg _) (two_zpow_pos _).le
  have hrounds := roundUp_rounds mode (fpSign b) (dropped_unit (unitOf b) hm)
  have hword : convertWord b mode =
      if roundedInt mode b < -2 ^ 31 ∨ 2 ^ 31 - 1 < roundedInt mode b then
        { invalid := fpVXCVI, word := saturated (fpSign b), fr := incOf mode b, fi := belowUnit (mantissaOf b) (unitOf b) != 0 }
      else
        { invalid := 0, word := BitVec.ofInt 32 (roundedInt mode b), fr := incOf mode b
          fi := belowUnit (mantissaOf b) (unitOf b) != 0 } := by
    simp only [convertWord, isSNaN_of_isFinite hfin, isNaN_of_isFinite hfin, Bool.false_eq_true, if_false, if_neg hsmall]
    rfl
  have hfi : (2 * belowUnit (mantissaOf b) (unitOf b) != 0) = (belowUnit (mantissaOf b) (unitOf b) != 0) := by
    rw [Bool.eq_iff_iff, bne_iff_ne, bne_iff_ne]
    omega
  rw [hfi] at hrounds
  have hr : roundsTo mode (fpValue b) (roundedInt mode b) := by
    rw [fpValue_eq_signed]
    exact roundsTo_of_multiple hx hrounds
  have hinexact : (belowUnit (mantissaOf b) (unitOf b) != 0) = decide ((roundedInt mode b : ℚ) ≠ fpValue b) := by
    rw [fpValue_eq_signed]
    exact inexact_of_multiple hrounds
  have hgrew : incOf mode b = decide (|fpValue b| < |(roundedInt mode b : ℚ)|) := by
    rw [fpValue_eq_signed]
    exact grew_of_multiple hx hrounds
  refine ⟨roundedInt mode b, hr, fun hlo hhi => ?_, fun word h => ⟨incOf mode b, ?_⟩⟩
  · rw [hword, if_neg (by omega), hinexact, ← hgrew]
  · rw [hword, if_pos (h.imp And.left And.left), hinexact, saturated_of_beyond rfl h]

theorem findsInt_of_isFinite {b : Dword} (mode : BitVec 2) (hfin : isFinite b = true) : ∃ n, FindsInt b mode n :=
  (Decidable.em (1086 < fpExp b)).elim (findsInt_large mode hfin) (findsInt_small mode hfin)

end Sys2Proof.Proofs

/-! The results of `fctiw` and `fctiwz` (44_fp_convert_compare_fpscr.md R392 to R394). -/

namespace Sys2Proof.Proofs

open Sys2Proof Sys2Proof.Machine Sys2Proof.Laws

theorem signalsBits_VXCVI : SignalsBits fpVXCVI [23] := signalsBits_one rfl (by decide) (by decide)
theorem signalsBits_VXSNAN : SignalsBits fpVXSNAN [7] := signalsBits_one rfl (by decide) (by decide)

/-- Exception bits that VE enables, beside XX. -/
theorem someEnabled_conversion {f : Word} {inv : List Nat} {fi : Bool} (hne : inv ≠ []) (hve : ∀ k ∈ inv, enableOf k = 24) :
    someEnabled f (inv ++ inexactBit fi) ↔ fpVE f = true ∨ (fi = true ∧ fpXE f = true) := by
  rw [← someEnabled_inexact]
  constructor
  · rintro ⟨k, hk, hbit⟩
    obtain hk | hk := List.mem_append.mp hk
    · rw [hve k hk] at hbit
      exact .inl hbit
    · exact .inr ⟨k, hk, hbit⟩
  · rintro (hbit | ⟨k, hk, hbit⟩)
    · obtain ⟨k, hk⟩ := List.exists_mem_of_ne_nil inv hne
      exact ⟨k, List.mem_append_left _ hk, by rwa [hve k hk]⟩
    · exact ⟨k, List.mem_append_right _ hk, hbit⟩

theorem fpscrBecomes_anyFprf {s t : State} {sets : List Nat} {fr fi : Option Bool} {fprf : Option (BitVec 5)}
    (h : fpscrBecomes s t sets fr fi fprf) : fpscrBecomes s t sets fr fi none := by
  obtain ⟨hbits, hfx, hsummed, hfr, hfi, -⟩ := h
  exact ⟨hbits, hfx, hsummed, hfr, hfi, nofun⟩

section
variable {i : Instr} {s : State} {frD frB : Reg} {rc : Bool} {rn : BitVec 2} {c : Converted} {r : FpResult}

theorem exec_convert (h : (i = .fctiw frD frB rc ∧ rn = fpRN s.fpscr) ∨ (i = .fctiwz frD frB rc ∧ rn = 1#2)) :
    exec i s = convertToIntWord rn frD frB rc s := by
  obtain ⟨rfl, rfl⟩ | ⟨rfl, rfl⟩ := h <;> rfl

theorem convert_assist (hfp : msrFP s.msr = true)
    (h : convertOutcome s.fpscr s.fpTraps s.draw.1 (convertWord (s.f frB) rn) = .assist) :
    convertToIntWord rn frD frB rc s = raise .fpAssist s := by
  rw [convertToIntWord, fpAvailable_on _ hfp]
  simp only [h]

/-- Outside SIE mode a conversion draws the free values of its result, and delivers it. -/
theorem convert_result (hfp : msrFP s.msr = true) (hsie : s.sie = false)
    (h : convertOutcome s.fpscr s.fpTraps s.draw.1 (convertWord (s.f frB) rn) = .result r) :
    convertToIntWord rn frD frB rc s = .next (delivered s.draw.2 frD rc r) := by
  have hafter : (s.draw.2.deliverResult frD rc r).sie = false :=
    (congrArg (bit · 0) (deliverResult_fpecr (s := s.draw.2) frD rc r hsie)).trans hsie
  have hcauses : (s.draw.2.deliverResult frD rc r).setCauses false (isDenormal (s.f frB)) false false =
      s.draw.2.deliverResult frD rc r := by
    rw [State.setCauses, hafter, if_neg Bool.false_ne_true]
  rw [convertToIntWord, fpAvailable_on _ hfp]
  simp only [h, hcauses]
  exact finishFp_plain hafter

/-- What a delivered conversion leaves, where its word is written. -/
theorem delivered_word {d : Dword} {word : Word} {sets : List Nat} (hsie : s.sie = false) (hset : SignalsBits r.set sets)
    (hv : r.value = some (d.extractLsb' 32 32 ++ word : BitVec 64)) :
    ((delivered s.draw.2 frD rc r).f frD).extractLsb' 0 32 = word ∧
      fpscrBecomes s (delivered s.draw.2 frD rc r) sets r.fr r.fi none ∧
      onlyFreeFpResult frD rc s (delivered s.draw.2 frD rc r) := by
  refine ⟨?_, fpscrBecomes_anyFprf (fpscrBecomes_delivered s.draw.2 frD rc hset),
    onlyFreeFpResult_delivered (s := s.draw.2) frD rc r hsie⟩
  rw [delivered_f frD rc hv]
  exact BitVec.extractLsb'_append_eq_right

/-- The results of a conversion without an invalid operation. -/
theorem convert_valid (hexec : exec i s = convertToIntWord rn frD frB rc s) (hc : convertWord (s.f frB) rn = c)
    (hinv : c.invalid = 0) :
    (s.plainFloat (inexactBit c.fi) → ∃ t, exec i s = .next t ∧ (t.f frD).extractLsb' 0 32 = c.word ∧
        fpscrBecomes s t (inexactBit c.fi) (some c.fr) (some c.fi) none ∧ onlyFreeFpResult frD rc s t) ∧
      (s.assists (inexactBit c.fi) → raises .fpAssist 0 i s) := by
  have hout (traps : Bool) (d : Dword) : convertOutcome s.fpscr traps d c = trapIf (c.fi && fpXE s.fpscr && traps)
      { value := some (d.extractLsb' 32 32 ++ c.word : BitVec 64), fprf := some (d.setWidth 5), set := maskIf c.fi fpXX
        fr := some c.fr, fi := some c.fi, tiny := false } := by
    simp only [convertOutcome, hinv, if_true]
  have hen := someEnabled_inexact s.fpscr c.fi
  constructor
  · intro hplain
    have hoff : (c.fi && fpXE s.fpscr && s.fpTraps) = false := by
      rw [← Bool.not_eq_true, Bool.and_eq_true, Bool.and_eq_true]
      rintro ⟨hx, htraps⟩
      exact Bool.false_ne_true ((fpTraps_of_plainFloat hplain (hen.mpr hx)).symm.trans htraps)
    obtain ⟨hfp, hsie, -⟩ := hplain
    have hresult := (hout s.fpTraps s.draw.1).trans (congrArg (trapIf · _) hoff)
    subst hc
    exact ⟨_, hexec.trans (convert_result hfp hsie hresult), delivered_word hsie (signalsBits_inexact _) rfl⟩
  · rintro ⟨hprecise, hsome⟩
    obtain ⟨hfi, hxe⟩ := hen.mp hsome
    have htraps := fpTraps_of_preciseFloat hprecise
    obtain ⟨hfp, -, -, hdbg⟩ := hprecise
    have hon : (c.fi && fpXE s.fpscr && s.fpTraps) = true := by rw [hfi, hxe, htraps]; rfl
    have hassist := (hout s.fpTraps s.draw.1).trans (congrArg (trapIf · _) hon)
    subst hc
    exact raises_of_exec (hexec.trans (convert_assist hfp hassist)) rfl hdbg

/-- An invalid conversion that would deliver `word` and sets the exception bits `sets`, in every mode. -/
def InvalidConversion (i : Instr) (s : State) (frD : Reg) (rc : Bool) (word : Word) (sets : List Nat) : Prop :=
  (s.plainFloat sets → fpVE s.fpscr = false → ∃ t, exec i s = .next t ∧ (t.f frD).extractLsb' 0 32 = word ∧
    fpscrBecomes s t sets (some false) (some false) none ∧ onlyFreeFpResult frD rc s t) ∧
  (s.plainFloat sets → fpVE s.fpscr = true → ∃ t, exec i s = .next t ∧ t.fpr = s.fpr ∧
    fpscrBecomes s t sets (some false) (some false) (some (bits s.fpscr 15 5)) ∧ onlyFreeFpResult frD rc s t) ∧
  (s.assists sets → raises .fpAssist 0 i s)

/-- The outcome of an invalid conversion: with VE the exception bits alone, else the word too. -/
theorem convertOutcome_invalid (f : Word) (traps : Bool) (d : Dword) (h : c.invalid ≠ 0) :
    convertOutcome f traps d c =
      if fpVE f then trapIf traps
        { value := none, fprf := none, set := c.invalid ||| maskIf c.fi fpXX, fr := some false, fi := some false, tiny := false }
      else trapIf (c.fi && fpXE f && traps)
        { value := some (d.extractLsb' 32 32 ++ c.word : BitVec 64), fprf := some (d.setWidth 5)
          set := c.invalid ||| maskIf c.fi fpXX, fr := some false, fi := some false, tiny := false } := if_neg h

theorem convert_invalid {inv : List Nat} (hexec : exec i s = convertToIntWord rn frD frB rc s)
    (hc : convertWord (s.f frB) rn = c) (hinv : SignalsBits c.invalid inv) (hne : inv ≠ [])
    (hve : ∀ k ∈ inv, enableOf k = 24) : InvalidConversion i s frD rc c.word (inv ++ inexactBit c.fi) := by
  have hset : SignalsBits (c.invalid ||| maskIf c.fi fpXX) (inv ++ inexactBit c.fi) := hinv.or (signalsBits_inexact _)
  have hen := someEnabled_conversion (f := s.fpscr) (fi := c.fi) hne hve
  have hout := convertOutcome_invalid (c := c) s.fpscr s.fpTraps s.draw.1 (hinv.ne_zero hne)
  subst hc
  refine ⟨fun hplain hoff => ?_, fun hplain hon => ?_, fun ⟨hprecise, hsome⟩ => ?_⟩
  · have hquiet : ((convertWord (s.f frB) rn).fi && fpXE s.fpscr && s.fpTraps) = false := by
      rw [← Bool.not_eq_true, Bool.and_eq_true, Bool.and_eq_true]
      rintro ⟨hx, htraps⟩
      exact Bool.false_ne_true ((fpTraps_of_plainFloat hplain (hen.mpr (.inr hx))).symm.trans htraps)
    obtain ⟨hfp, hsie, -⟩ := hplain
    have hresult := hout.trans ((if_neg (by simp [hoff])).trans (congrArg (trapIf · _) hquiet))
    exact ⟨_, hexec.trans (convert_result hfp hsie hresult), delivered_word hsie hset rfl⟩
  · have htraps := fpTraps_of_plainFloat hplain (hen.mpr (.inl hon))
    obtain ⟨hfp, hsie, -⟩ := hplain
    have hresult := hout.trans ((if_pos hon).trans (congrArg (trapIf · _) htraps))
    exact ⟨_, hexec.trans (convert_result hfp hsie hresult), delivered_fpr_none (s := s.draw.2) frD rc rfl,
      fpscrBecomes_delivered s.draw.2 frD rc hset, onlyFreeFpResult_delivered (s := s.draw.2) frD rc _ hsie⟩
  · have htraps := fpTraps_of_preciseFloat hprecise
    obtain ⟨hfp, -, -, hdbg⟩ := hprecise
    refine raises_of_exec (hexec.trans (convert_assist hfp (hout.trans ?_))) rfl hdbg
    split
    · exact congrArg (trapIf · _) htraps
    · next hoff =>
      obtain ⟨hfi, hxe⟩ := (hen.mp hsome).resolve_left hoff
      have hon : ((convertWord (s.f frB) rn).fi && fpXE s.fpscr && s.fpTraps) = true := by rw [hfi, hxe, htraps]; rfl
      exact congrArg (trapIf · _) hon

end

/-- The word of an integer that it can hold. -/
theorem toInt_ofInt_word {n : ℤ} (hlo : -2 ^ 31 ≤ n) (hhi : n ≤ 2 ^ 31 - 1) : (BitVec.ofInt 32 n).toInt = n := by
  rw [BitVec.toInt_ofInt, Int.bmod_eq_of_le (by omega) (by omega)]

theorem enableOf_VXCVI : ∀ k ∈ [23], enableOf k = 24 := by decide
theorem enableOf_VXSNAN_VXCVI : ∀ k ∈ [7, 23], enableOf k = 24 := by decide

/-- Settles O40: what the conversion finds in its operand, and how it delivers it in every mode. -/
theorem convertToIntegerResult : Obligations.ConvertToIntegerResult := by
  intro frD frB rc s rn i h b v invalid
  have hexec := exec_convert h
  refine ⟨fun hfin => ?_, fun hinf => ?_, fun hnan => ?_⟩
  · obtain ⟨n, hrounds, hword, hbeyond⟩ := findsInt_of_isFinite rn hfin
    have hout (word : Word) (hside : (n < -2 ^ 31 ∧ word = 0x80000000#32) ∨ (2 ^ 31 - 1 < n ∧ word = 0x7FFFFFFF#32)) :
        InvalidConversion i s frD rc word (23 :: inexactBit (decide ((n : ℚ) ≠ v))) := by
      obtain ⟨fr, hc⟩ := hbeyond word hside
      exact convert_invalid hexec hc signalsBits_VXCVI (by decide) enableOf_VXCVI
    refine ⟨n, hrounds, fun hlo hhi => ?_, fun hlt => hout _ (.inl ⟨hlt, rfl⟩), fun hgt => hout _ (.inr ⟨hgt, rfl⟩)⟩
    obtain ⟨hplain, hassist⟩ := convert_valid hexec (hword hlo hhi) rfl
    refine ⟨fun hp => ?_, hassist⟩
    obtain ⟨t, ht, hw, hrest⟩ := hplain hp
    refine ⟨t, ht, ?_, hrest⟩
    rw [hw]
    exact toInt_ofInt_word hlo hhi
  · obtain ⟨he, hf⟩ : fpExp b = 2047 ∧ fpFrac b = 0 := by simpa [isInf] using hinf
    have hc : convertWord b rn = { invalid := fpVXCVI, word := saturated (fpSign b), fr := false, fi := false } := by
      simp [convertWord, isSNaN, isNaN, he, hf]
    exact convert_invalid hexec hc signalsBits_VXCVI (by decide) enableOf_VXCVI
  · cases hs : isSNaN b with
    | true =>
      have hc : convertWord b rn = { invalid := fpVXSNAN ||| fpVXCVI, word := 0x80000000#32, fr := false, fi := false } :=
        if_pos hs
      exact convert_invalid hexec hc (signalsBits_VXSNAN.or signalsBits_VXCVI) (by decide) enableOf_VXSNAN_VXCVI
    | false =>
      have hc : convertWord b rn = { invalid := fpVXCVI, word := 0x80000000#32, fr := false, fi := false } :=
        (if_neg (by simp [hs])).trans (if_pos hnan)
      exact convert_invalid hexec hc signalsBits_VXCVI (by decide) enableOf_VXCVI

end Sys2Proof.Proofs
